-- ==== Sys2Proof/Word.lean ====
section
/-! DEFINITION. The word types of the block: a byte, a bus address, a 16-bit datum, a command word, the LFSR (rules R14, R16, R90). -/

namespace Sys2Proof

/-- DATA_WIDTH is 8 bits (R14). -/
abbrev Byte := BitVec 8

/-- ADDR_WIDTH is 16 bits (R14). -/
abbrev Addr := BitVec 16

/-- The datum of RD16 and WR16 (R76). -/
abbrev Half := BitVec 16

/-- A command word: `op[39:32]`, `A[31:16]`, `D[15:0]` (R90). -/
abbrev CommandWord := BitVec 40

/-- LFSR_WIDTH is 15 bits (R14, R48). -/
abbrev Lfsr := BitVec 15

end Sys2Proof
end

