-- ==== Sys2Proof/Config.lean ====
section
/-! DEFINITION. What is fixed for a machine: the block's named parameters (R14), its constants, the collaborator ports (R12)
and the free functions that answer for the collaborators, whose behaviour the spec leaves to them (R5, U2, U3). -/

namespace Sys2Proof

/-- The handlers the low I/O registry may name (R30). -/
inductive LowIoHandler where
  | joypad
  | serial
  | timer
deriving DecidableEq, Repr

/-- The collaborator ports of AddressSpace (R12). A mapper is named by the selector it was constructed from (R173). -/
inductive Port where
  | mapper (cart : BitVec 16)
  | video
  | audio
  | timer
  | joypad
  | serial
  | dma
deriving DecidableEq, Repr

/-- A call AddressSpace makes on a port (R12, R13); the full 16-bit bus address is passed unchanged. -/
inductive PortCall where
  | read (a : Addr)
  | write (a : Addr) (v : Byte)
  | peek (a : Addr)
  | reset
  | saveRam
deriving DecidableEq, Repr

/-- The parameters the spec names without fixing them (R14). The model takes them as an argument: they stand in
`State.params`, no operation changes them, and a statement about every state is a statement about every value of them. -/
structure Params where
  /-- IF_ADDR, the address of the interrupt-flag register (D3). -/
  ifAddr : Addr
  /-- KEY1_ADDR, the address of the speed-mode register (D4). -/
  key1Addr : Addr
  /-- DMA_ADDR, the DMA-trigger address (D5). -/
  dmaAddr : Addr
  /-- LOWIO_MAP: the handler of each of the eight addresses of [0xFF00, 0xFF08), or none (R30, D6). -/
  lowIoMap : Vector (Option LowIoHandler) 8
  /-- TRIG_BIT, the trigger bit of NC register 3 (D8). -/
  trigBit : Fin 8
  /-- LENGTH_STEP, as the list of the length-clocking steps (R187, D9). -/
  lengthSteps : List (BitVec 3)
  /-- LEN_LOAD_ON_REG0 (R181, D13). -/
  lenLoadOnReg0 : Bool
deriving DecidableEq, Repr

/-- The defaults of R14: what the opcode table and the test vectors of the spec use. PRESUMED (log 5): taken by the spec
from general knowledge of the console's family. -/
def Params.default : Params where
  ifAddr := 0xFF0F
  key1Addr := 0xFF4D
  dmaAddr := 0xFF46
  lowIoMap := #v[some .joypad, some .serial, some .serial, none, some .timer, some .timer, some .timer, some .timer]
  trigBit := 7
  lengthSteps := [0, 2, 4, 6]
  lenLoadOnReg0 := false

/-- What R14 asks of the three addresses, and D8 of the trigger bit. No meaning depends on it: the dispatch order decides
where it does not hold (R14, R121). -/
def Params.wf (p : Params) : Bool :=
  let inIo (a : Addr) := decide (0xFF00 ≤ a.toNat) && decide (a.toNat < 0xFF80)
  let delegated (a : Addr) :=
    decide (a.toNat < 0xFF08) || (decide (0xFF10 ≤ a.toNat) && decide (a.toNat < 0xFF4C))
  inIo p.ifAddr && inIo p.key1Addr && inIo p.dmaAddr &&
    decide (p.ifAddr ≠ p.key1Addr) && decide (p.ifAddr ≠ p.dmaAddr) && decide (p.key1Addr ≠ p.dmaAddr) &&
    !delegated p.ifAddr && !delegated p.key1Addr && decide (p.trigBit ≠ 6)

/-- VRAM_SIZE (R14, R21). -/
def Config.vramSize : Nat := 8192
/-- WRAM0_SIZE and WRAM1_SIZE (R14, R22, R23). -/
def Config.wramSize : Nat := 4096
/-- OAM_SIZE (R14, R24). -/
def Config.oamSize : Nat := 160
/-- HRAM_SIZE: 128 bytes allocated, 127 reachable (R14, R25, C3). -/
def Config.hramSize : Nat := 128
/-- LEN_RELOAD (R14). -/
def Config.lenReload : Nat := 64
/-- ENV_ZERO_PERIOD (R14). -/
def Config.envZeroPeriod : Nat := 8
/-- The largest volume (R47). -/
def Config.maxVolume : Nat := 15
/-- The longest LFSR period, `112 << 15` (R212). -/
def Config.maxPeriod : Nat := 3670016

/-- FREE: the byte a collaborator answers to `read a` or `peek a` in the hidden state numbered `st` (R12, R13, U3). One
function serves both calls, so `peek` returns what `read` would return in the same state (R13). No body: log 3. -/
opaque Config.portRead : Port → Nat → Addr → Byte

/-- FREE: the hidden state a collaborator is left in by a call (R12, U2, U3). No body: log 3. -/
opaque Config.portAfter : Port → PortCall → Nat → Nat

/-- FREE: the hidden state in which the external parser constructs `M(cart)` while persistent storage is in the state
numbered `storage` (R173, U3). No body: log 4. -/
opaque Config.mapperInit : BitVec 16 → Nat → Nat

/-- FREE: what persistent storage holds after `saveRam()` of the mapper `M(cart)` in the hidden state `st` (R12). No
body: log 4. -/
opaque Config.storageAfter : BitVec 16 → Nat → Nat → Nat

end Sys2Proof
end

