-- ==== Sys2Proof/Syntax.lean ====
section
/-! DEFINITION. The operations: one constructor per mnemonic of spec/opcode_table.json (R92, R94). A table row of a bus
operation is one aligned block of a region; the rows of one region share a constructor. -/

namespace Sys2Proof

/-- One operation with its operands as R93 assembles them. Operands the rules take as unsigned integers (an interrupt bit,
a cycle count) are natural numbers; `wellFormed` bounds them by what a command word can hold. -/
inductive Instr where
  /-- RD.ROM, R122. -/
  | rdRom (a : Addr)
  /-- RD.VRAM, R123. -/
  | rdVram (a : Addr)
  /-- RD.EXTRAM, R124. -/
  | rdExtram (a : Addr)
  /-- RD.WRAM0, R125. -/
  | rdWram0 (a : Addr)
  /-- RD.WRAM1, R126. -/
  | rdWram1 (a : Addr)
  /-- RD.ECHO, R127. -/
  | rdEcho (a : Addr)
  /-- RD.OAM, R128. -/
  | rdOam (a : Addr)
  /-- RD.UNUSABLE, R129. -/
  | rdUnusable (a : Addr)
  /-- RD.LOWIO, R134. -/
  | rdLowio (a : Addr)
  /-- RD.IF, R130. -/
  | rdIf (a : Addr)
  /-- RD.SOUND, R132. -/
  | rdSound (a : Addr)
  /-- RD.VIDEO, R133. -/
  | rdVideo (a : Addr)
  /-- RD.KEY1, R131. -/
  | rdKey1 (a : Addr)
  /-- RD.IOUNMAPPED, R135. -/
  | rdIounmapped (a : Addr)
  /-- RD.HRAM, R136. -/
  | rdHram (a : Addr)
  /-- RD.IE, R137. -/
  | rdIe (a : Addr)
  /-- WR.ROM, R141. -/
  | wrRom (a : Addr) (v : Byte)
  /-- WR.VRAM, R142. -/
  | wrVram (a : Addr) (v : Byte)
  /-- WR.EXTRAM, R143. -/
  | wrExtram (a : Addr) (v : Byte)
  /-- WR.WRAM0, R144. -/
  | wrWram0 (a : Addr) (v : Byte)
  /-- WR.WRAM1, R145. -/
  | wrWram1 (a : Addr) (v : Byte)
  /-- WR.ECHO, R146. -/
  | wrEcho (a : Addr) (v : Byte)
  /-- WR.OAM, R147. -/
  | wrOam (a : Addr) (v : Byte)
  /-- WR.UNUSABLE, R148. -/
  | wrUnusable (a : Addr) (v : Byte)
  /-- WR.LOWIO, R154. -/
  | wrLowio (a : Addr) (v : Byte)
  /-- WR.IF, R149. -/
  | wrIf (a : Addr) (v : Byte)
  /-- WR.SOUND, R152. -/
  | wrSound (a : Addr) (v : Byte)
  /-- WR.VIDEO, R153. -/
  | wrVideo (a : Addr) (v : Byte)
  /-- WR.DMA, R151. -/
  | wrDma (a : Addr) (v : Byte)
  /-- WR.KEY1, R150. -/
  | wrKey1 (a : Addr) (v : Byte)
  /-- WR.IOUNMAPPED, R155. -/
  | wrIounmapped (a : Addr) (v : Byte)
  /-- WR.HRAM, R156. -/
  | wrHram (a : Addr) (v : Byte)
  /-- WR.IE, R157. -/
  | wrIe (a : Addr) (v : Byte)
  /-- PEEK.ROM, R161. -/
  | peekRom (a : Addr)
  /-- PEEK.VRAM, R160. -/
  | peekVram (a : Addr)
  /-- PEEK.EXTRAM, R161. -/
  | peekExtram (a : Addr)
  /-- PEEK.WRAM0, R160. -/
  | peekWram0 (a : Addr)
  /-- PEEK.WRAM1, R160. -/
  | peekWram1 (a : Addr)
  /-- PEEK.ECHO, R160. -/
  | peekEcho (a : Addr)
  /-- PEEK.OAM, R160. -/
  | peekOam (a : Addr)
  /-- PEEK.UNUSABLE, R160. -/
  | peekUnusable (a : Addr)
  /-- PEEK.LOWIO, R161. -/
  | peekLowio (a : Addr)
  /-- PEEK.IF, R160. -/
  | peekIf (a : Addr)
  /-- PEEK.SOUND, R161. -/
  | peekSound (a : Addr)
  /-- PEEK.VIDEO, R161. -/
  | peekVideo (a : Addr)
  /-- PEEK.KEY1, R160. -/
  | peekKey1 (a : Addr)
  /-- PEEK.IOUNMAPPED, R160. -/
  | peekIounmapped (a : Addr)
  /-- PEEK.HRAM, R160. -/
  | peekHram (a : Addr)
  /-- PEEK.IE, R160. -/
  | peekIe (a : Addr)
  /-- RD16, R162. -/
  | rd16 (a : Addr)
  /-- WR16, R163. -/
  | wr16 (a : Addr) (v : Half)
  /-- REQINT, R170. -/
  | reqint (bit : Nat)
  /-- RESET, R171. -/
  | reset
  /-- TICK, R172. -/
  | tick
  /-- LOADCART, R173. -/
  | loadcart (cart : BitVec 16)
  /-- NWR0, R181. -/
  | nwr0 (v : Byte)
  /-- NWR1, R182. -/
  | nwr1 (v : Byte)
  /-- NWR2, R183. -/
  | nwr2 (v : Byte)
  /-- NWR3 (trigger bit clear), R184. -/
  | nwr3 (v : Byte)
  /-- NWR3.TRIG (trigger bit set), R185. -/
  | nwr3Trig (v : Byte)
  /-- NRD0, R194. -/
  | nrd0
  /-- NRD1, R195. -/
  | nrd1
  /-- NRD2, R196. -/
  | nrd2
  /-- NRD3, R197. -/
  | nrd3
  /-- NADV, R211. -/
  | nadv (cycles : Nat)
  /-- NCLKLEN, R214. -/
  | nclklen
  /-- NCLKENV, R215. -/
  | nclkenv
  /-- NENABLED, R216. -/
  | nenabled
  /-- NSAMPLE, R217. -/
  | nsample
  /-- FS, R210. -/
  | fs (step : BitVec 3)
deriving DecidableEq, Repr

end Sys2Proof
end

