-- ==== Sys2Proof/WellFormed.lean ====
section
/-! DEFINITION. Well-formed operations: the address of a bus operation lies in its row's region (the map of R61 and the
priority orders of R69 and R70), the data bit TRIG_BIT of an NWR 3 is what its row says (R184, R185), and every integer
operand fits the command word (R93). The ranges are written from the address map, not through the decoder. -/

namespace Sys2Proof

/-- `a` in `[lo, hi)` (R16: ranges are half-open). -/
def within (lo hi : Nat) (a : Addr) : Bool := decide (lo ≤ a.toNat) && decide (a.toNat < hi)

/-- The I/O block [0xFF00, 0xFF80) (R61). -/
def inIoBlock (a : Addr) : Bool := within 0xFF00 0xFF80 a

/-- Case (1) of R69 and R70. -/
def isIf (p : Params) (a : Addr) : Bool := inIoBlock a && (a == p.ifAddr)

/-- Case (2) of R69 and R70. -/
def isKey1 (p : Params) (a : Addr) : Bool := inIoBlock a && (a == p.key1Addr) && !(a == p.ifAddr)

/-- In the I/O block and claimed by neither of the first two cases. -/
def pastRegisters (p : Params) (a : Addr) : Bool := inIoBlock a && !(a == p.ifAddr) && !(a == p.key1Addr)

/-- The sound range, case (3) of R69. -/
def isSound (p : Params) (a : Addr) : Bool := pastRegisters p a && within 0xFF10 0xFF40 a

/-- The video range, case (4) of R69. -/
def isVideo (p : Params) (a : Addr) : Bool := pastRegisters p a && within 0xFF40 0xFF4C a

/-- The low I/O range at an address with a registered peripheral, case (5) of R69. -/
def isLowio (p : Params) (a : Addr) : Bool :=
  pastRegisters p a && within 0xFF00 0xFF08 a && (p.lowIoMap.toList.getD (a.toNat - 0xFF00) none).isSome

/-- Case (6) of R69: claimed by no earlier case (R71). -/
def isUnmapped (p : Params) (a : Addr) : Bool :=
  pastRegisters p a && !isSound p a && !isVideo p a && !isLowio p a

/-- Case (3) of R70: the DMA-trigger address, on writes. -/
def isDma (p : Params) (a : Addr) : Bool := pastRegisters p a && (a == p.dmaAddr)

/-- The condition each row puts on its operation's operands. -/
def Instr.wellFormed (p : Params) : Instr → Bool
  | .rdRom a => within 0x0000 0x8000 a
  | .rdVram a => within 0x8000 0xA000 a
  | .rdExtram a => within 0xA000 0xC000 a
  | .rdWram0 a => within 0xC000 0xD000 a
  | .rdWram1 a => within 0xD000 0xE000 a
  | .rdEcho a => within 0xE000 0xFE00 a
  | .rdOam a => within 0xFE00 0xFEA0 a
  | .rdUnusable a => within 0xFEA0 0xFF00 a
  | .rdLowio a => isLowio p a
  | .rdIf a => isIf p a
  | .rdSound a => isSound p a
  | .rdVideo a => isVideo p a
  | .rdKey1 a => isKey1 p a
  | .rdIounmapped a => isUnmapped p a
  | .rdHram a => within 0xFF80 0xFFFF a
  | .rdIe a => a == 0xFFFF
  | .wrRom a _ => within 0x0000 0x8000 a
  | .wrVram a _ => within 0x8000 0xA000 a
  | .wrExtram a _ => within 0xA000 0xC000 a
  | .wrWram0 a _ => within 0xC000 0xD000 a
  | .wrWram1 a _ => within 0xD000 0xE000 a
  | .wrEcho a _ => within 0xE000 0xFE00 a
  | .wrOam a _ => within 0xFE00 0xFEA0 a
  | .wrUnusable a _ => within 0xFEA0 0xFF00 a
  | .wrLowio a _ => isLowio p a && !isDma p a
  | .wrIf a _ => isIf p a
  | .wrSound a _ => isSound p a && !isDma p a
  | .wrVideo a _ => isVideo p a && !isDma p a
  | .wrKey1 a _ => isKey1 p a
  | .wrIounmapped a _ => isUnmapped p a && !isDma p a
  | .wrHram a _ => within 0xFF80 0xFFFF a
  | .wrIe a _ => a == 0xFFFF
  | .wrDma a _ => isDma p a
  | .peekRom a => within 0x0000 0x8000 a
  | .peekVram a => within 0x8000 0xA000 a
  | .peekExtram a => within 0xA000 0xC000 a
  | .peekWram0 a => within 0xC000 0xD000 a
  | .peekWram1 a => within 0xD000 0xE000 a
  | .peekEcho a => within 0xE000 0xFE00 a
  | .peekOam a => within 0xFE00 0xFEA0 a
  | .peekUnusable a => within 0xFEA0 0xFF00 a
  | .peekLowio a => isLowio p a
  | .peekIf a => isIf p a
  | .peekSound a => isSound p a
  | .peekVideo a => isVideo p a
  | .peekKey1 a => isKey1 p a
  | .peekIounmapped a => isUnmapped p a
  | .peekHram a => within 0xFF80 0xFFFF a
  | .peekIe a => a == 0xFFFF
  | .rd16 _ => true
  | .wr16 _ _ => true
  | .reqint bit => decide (bit < 2 ^ 16)
  | .reset => true
  | .tick => true
  | .loadcart _ => true
  | .nwr0 _ => true
  | .nwr1 _ => true
  | .nwr2 _ => true
  | .nwr3 v => !v.getLsbD p.trigBit
  | .nwr3Trig v => v.getLsbD p.trigBit
  | .nrd0 => true
  | .nrd1 => true
  | .nrd2 => true
  | .nrd3 => true
  | .nadv cycles => decide (cycles < 2 ^ 32)
  | .nclklen => true
  | .nclkenv => true
  | .nenabled => true
  | .nsample => true
  | .fs _ => true

end Sys2Proof
end

