-- ==== Sys2Proof/Decode.lean ====
section
/-! DEFINITION. From command words to operations and back: the fields of a word (R90, R93), the address dispatch (R121),
the decoder (R100), the encoder, and the written syntax with its operand normalisation (R18, R98). -/

namespace Sys2Proof

/-! ## Fields of a command word -/

/-- `op = CW[39:32]` (R90). -/
def opField (w : CommandWord) : Byte := w.extractLsb' 32 8
/-- `A = CW[31:16]` (R90). -/
def aField (w : CommandWord) : BitVec 16 := w.extractLsb' 16 16
/-- `D = CW[15:0]` (R90). -/
def dField (w : CommandWord) : BitVec 16 := w.extractLsb' 0 16
/-- The byte datum `CW[7:0]` (R93). -/
def dataField (w : CommandWord) : Byte := w.extractLsb' 0 8
/-- The cycle count `CW[31:0]` (R93). -/
def cyclesField (w : CommandWord) : BitVec 32 := w.extractLsb' 0 32
/-- The frame step `CW[2:0]` (R93). -/
def stepField (w : CommandWord) : BitVec 3 := w.extractLsb' 0 3

/-! ## Address dispatch -/

/-- The destination of a read (R94). -/
inductive Region where
  | rom
  | vram
  | extram
  | wram0
  | wram1
  | echo
  | oam
  | unusable
  | lowio
  | ifReg
  | sound
  | video
  | key1
  | ioUnmapped
  | hram
  | ie
deriving DecidableEq, Repr

/-- The destination of a write: the read destinations and DMA (R70, R121). -/
inductive WriteDest where
  | dma
  | region (r : Region)
deriving DecidableEq, Repr

/-- `LOWIO_MAP[a - 0xFF00]` for `a` in [0xFF00, 0xFF08), else none (R30, R121). -/
def lowIoHandler (p : Params) (a : Addr) : Option LowIoHandler :=
  if 0xFF00 ≤ a.toNat ∧ a.toNat < 0xFF08 then p.lowIoMap.toList.getD (a.toNat - 0xFF00) none else none

/-- The sub-dispatch of the I/O block for reads, first match wins (R69, R121). -/
def decodeIoRead (p : Params) (a : Addr) : Region :=
  if a = p.ifAddr then .ifReg
  else if a = p.key1Addr then .key1
  else if 0xFF10 ≤ a.toNat ∧ a.toNat < 0xFF40 then .sound
  else if 0xFF40 ≤ a.toNat ∧ a.toNat < 0xFF4C then .video
  else if (lowIoHandler p a).isSome then .lowio
  else .ioUnmapped

/-- `decode(a, read)` of R121; PEEK uses it too. -/
def decodeRead (p : Params) (a : Addr) : Region :=
  if a.toNat < 0x8000 then .rom
  else if a.toNat < 0xA000 then .vram
  else if a.toNat < 0xC000 then .extram
  else if a.toNat < 0xD000 then .wram0
  else if a.toNat < 0xE000 then .wram1
  else if a.toNat < 0xFE00 then .echo
  else if a.toNat < 0xFEA0 then .oam
  else if a.toNat < 0xFF00 then .unusable
  else if a.toNat < 0xFF80 then decodeIoRead p a
  else if a.toNat < 0xFFFF then .hram
  else .ie

/-- `decode(a, write)` of R121: as the read dispatch, with the DMA case tested after IF and KEY1 and before the ranges
(R70, C8). -/
def decodeWrite (p : Params) (a : Addr) : WriteDest :=
  if 0xFF00 ≤ a.toNat ∧ a.toNat < 0xFF80 ∧ a ≠ p.ifAddr ∧ a ≠ p.key1Addr ∧ a = p.dmaAddr then .dma
  else .region (decodeRead p a)

/-! ## Decoder -/

/-- Why a command word selects no operation (R96). -/
inductive DecodeError where
  /-- An NWR or NRD whose index is not 0..3 (R96, R198). -/
  | invalidIndex (index : BitVec 16)
  /-- A reserved `op` value (R96). -/
  | reservedOp (op : Byte)
deriving DecidableEq, Repr

/-- The RD row of a region (R94). -/
def readInstr (r : Region) (a : Addr) : Instr :=
  match r with
  | .rom => .rdRom a
  | .vram => .rdVram a
  | .extram => .rdExtram a
  | .wram0 => .rdWram0 a
  | .wram1 => .rdWram1 a
  | .echo => .rdEcho a
  | .oam => .rdOam a
  | .unusable => .rdUnusable a
  | .lowio => .rdLowio a
  | .ifReg => .rdIf a
  | .sound => .rdSound a
  | .video => .rdVideo a
  | .key1 => .rdKey1 a
  | .ioUnmapped => .rdIounmapped a
  | .hram => .rdHram a
  | .ie => .rdIe a

/-- The WR row of a destination (R94). -/
def writeInstr (d : WriteDest) (a : Addr) (v : Byte) : Instr :=
  match d with
  | .dma => .wrDma a v
  | .region .rom => .wrRom a v
  | .region .vram => .wrVram a v
  | .region .extram => .wrExtram a v
  | .region .wram0 => .wrWram0 a v
  | .region .wram1 => .wrWram1 a v
  | .region .echo => .wrEcho a v
  | .region .oam => .wrOam a v
  | .region .unusable => .wrUnusable a v
  | .region .lowio => .wrLowio a v
  | .region .ifReg => .wrIf a v
  | .region .sound => .wrSound a v
  | .region .video => .wrVideo a v
  | .region .key1 => .wrKey1 a v
  | .region .ioUnmapped => .wrIounmapped a v
  | .region .hram => .wrHram a v
  | .region .ie => .wrIe a v

/-- The PEEK row of a region (R94). -/
def peekInstr (r : Region) (a : Addr) : Instr :=
  match r with
  | .rom => .peekRom a
  | .vram => .peekVram a
  | .extram => .peekExtram a
  | .wram0 => .peekWram0 a
  | .wram1 => .peekWram1 a
  | .echo => .peekEcho a
  | .oam => .peekOam a
  | .unusable => .peekUnusable a
  | .lowio => .peekLowio a
  | .ifReg => .peekIf a
  | .sound => .peekSound a
  | .video => .peekVideo a
  | .key1 => .peekKey1 a
  | .ioUnmapped => .peekIounmapped a
  | .hram => .peekHram a
  | .ie => .peekIe a

/-- The NWR rows: by index, and index 3 by the data bit TRIG_BIT (R94, R180). -/
def nwrInstr (p : Params) (index : BitVec 16) (v : Byte) : Except DecodeError Instr :=
  match index.toNat with
  | 0 => .ok (.nwr0 v)
  | 1 => .ok (.nwr1 v)
  | 2 => .ok (.nwr2 v)
  | 3 => .ok (if v.getLsbD p.trigBit then .nwr3Trig v else .nwr3 v)
  | _ => .error (.invalidIndex index)

/-- The NRD rows, by index (R94, R193). -/
def nrdInstr (index : BitVec 16) : Except DecodeError Instr :=
  match index.toNat with
  | 0 => .ok .nrd0
  | 1 => .ok .nrd1
  | 2 => .ok .nrd2
  | 3 => .ok .nrd3
  | _ => .error (.invalidIndex index)

/-- The decoder (R92, R97, R100): by `op`, then for RD, WR and PEEK by the address, for NWR and NRD by the index. Total;
fields an operation does not use are ignored (R90). -/
def decode (p : Params) (w : CommandWord) : Except DecodeError Instr :=
  match (opField w).toNat with
  | 0x00 => .ok (readInstr (decodeRead p (aField w)) (aField w))
  | 0x01 => .ok (writeInstr (decodeWrite p (aField w)) (aField w) (dataField w))
  | 0x02 => .ok (peekInstr (decodeRead p (aField w)) (aField w))
  | 0x03 => .ok (.rd16 (aField w))
  | 0x04 => .ok (.wr16 (aField w) (dField w))
  | 0x05 => .ok (.reqint (aField w).toNat)
  | 0x06 => .ok .reset
  | 0x07 => .ok .tick
  | 0x08 => .ok (.loadcart (aField w))
  | 0x10 => nwrInstr p (aField w) (dataField w)
  | 0x11 => nrdInstr (aField w)
  | 0x12 => .ok (.nadv (cyclesField w).toNat)
  | 0x13 => .ok .nclklen
  | 0x14 => .ok .nclkenv
  | 0x15 => .ok .nenabled
  | 0x16 => .ok .nsample
  | 0x17 => .ok (.fs (stepField w))
  | _ => .error (.reservedOp (opField w))

/-! ## Encoder -/

/-- `op ++ A ++ D` (R90). -/
def word (op : Byte) (a d : BitVec 16) : CommandWord := op ++ a ++ d

/-- The command word of an operation; a field the operation does not use is zero (R90 to R92). -/
def encode : Instr → CommandWord
  | .rdRom a => word 0x00 a 0
  | .rdVram a => word 0x00 a 0
  | .rdExtram a => word 0x00 a 0
  | .rdWram0 a => word 0x00 a 0
  | .rdWram1 a => word 0x00 a 0
  | .rdEcho a => word 0x00 a 0
  | .rdOam a => word 0x00 a 0
  | .rdUnusable a => word 0x00 a 0
  | .rdLowio a => word 0x00 a 0
  | .rdIf a => word 0x00 a 0
  | .rdSound a => word 0x00 a 0
  | .rdVideo a => word 0x00 a 0
  | .rdKey1 a => word 0x00 a 0
  | .rdIounmapped a => word 0x00 a 0
  | .rdHram a => word 0x00 a 0
  | .rdIe a => word 0x00 a 0
  | .wrRom a v => word 0x01 a (v.setWidth 16)
  | .wrVram a v => word 0x01 a (v.setWidth 16)
  | .wrExtram a v => word 0x01 a (v.setWidth 16)
  | .wrWram0 a v => word 0x01 a (v.setWidth 16)
  | .wrWram1 a v => word 0x01 a (v.setWidth 16)
  | .wrEcho a v => word 0x01 a (v.setWidth 16)
  | .wrOam a v => word 0x01 a (v.setWidth 16)
  | .wrUnusable a v => word 0x01 a (v.setWidth 16)
  | .wrLowio a v => word 0x01 a (v.setWidth 16)
  | .wrIf a v => word 0x01 a (v.setWidth 16)
  | .wrSound a v => word 0x01 a (v.setWidth 16)
  | .wrVideo a v => word 0x01 a (v.setWidth 16)
  | .wrDma a v => word 0x01 a (v.setWidth 16)
  | .wrKey1 a v => word 0x01 a (v.setWidth 16)
  | .wrIounmapped a v => word 0x01 a (v.setWidth 16)
  | .wrHram a v => word 0x01 a (v.setWidth 16)
  | .wrIe a v => word 0x01 a (v.setWidth 16)
  | .peekRom a => word 0x02 a 0
  | .peekVram a => word 0x02 a 0
  | .peekExtram a => word 0x02 a 0
  | .peekWram0 a => word 0x02 a 0
  | .peekWram1 a => word 0x02 a 0
  | .peekEcho a => word 0x02 a 0
  | .peekOam a => word 0x02 a 0
  | .peekUnusable a => word 0x02 a 0
  | .peekLowio a => word 0x02 a 0
  | .peekIf a => word 0x02 a 0
  | .peekSound a => word 0x02 a 0
  | .peekVideo a => word 0x02 a 0
  | .peekKey1 a => word 0x02 a 0
  | .peekIounmapped a => word 0x02 a 0
  | .peekHram a => word 0x02 a 0
  | .peekIe a => word 0x02 a 0
  | .rd16 a => word 0x03 a 0
  | .wr16 a v => word 0x04 a v
  | .reqint bit => word 0x05 (BitVec.ofNat 16 bit) 0
  | .reset => word 0x06 0 0
  | .tick => word 0x07 0 0
  | .loadcart cart => word 0x08 cart 0
  | .nwr0 v => word 0x10 0 (v.setWidth 16)
  | .nwr1 v => word 0x10 1 (v.setWidth 16)
  | .nwr2 v => word 0x10 2 (v.setWidth 16)
  | .nwr3 v => word 0x10 3 (v.setWidth 16)
  | .nwr3Trig v => word 0x10 3 (v.setWidth 16)
  | .nrd0 => word 0x11 0 0
  | .nrd1 => word 0x11 1 0
  | .nrd2 => word 0x11 2 0
  | .nrd3 => word 0x11 3 0
  | .nadv cycles => word 0x12 (BitVec.ofNat 16 (cycles / 2 ^ 16)) (BitVec.ofNat 16 cycles)
  | .nclklen => word 0x13 0 0
  | .nclkenv => word 0x14 0 0
  | .nenabled => word 0x15 0 0
  | .nsample => word 0x16 0 0
  | .fs step => word 0x17 0 (step.setWidth 16)

/-! ## Written syntax and operand normalisation -/

/-- A bus address operand of any magnitude is reduced to `a & 0xFFFF` (R18). -/
def normAddr (a : Nat) : Addr := BitVec.ofNat 16 a
/-- A byte datum is reduced to `v & 0xFF` (R18, D19). -/
def normByte (v : Nat) : Byte := BitVec.ofNat 8 v
/-- A 16-bit datum is reduced to `v & 0xFFFF` (R18). -/
def normHalf (v : Nat) : Half := BitVec.ofNat 16 v

/-- One written line (R98): a mnemonic without its region suffix, operands as natural numbers. -/
inductive Command where
  | rd (a : Nat)
  | wr (a v : Nat)
  | peek (a : Nat)
  | rd16 (a : Nat)
  | wr16 (a v : Nat)
  | reqint (bit : Nat)
  | reset
  | tick
  | loadcart (cart : Nat)
  | nwr (index v : Nat)
  | nrd (index : Nat)
  | nadv (cycles : Nat)
  | nclklen
  | nclkenv
  | nenabled
  | nsample
  | fs (step : Nat)
deriving DecidableEq, Repr

/-- An operand that is not normalised must fit its field (R93): a natural number below `2 ^ n`, or nothing. -/
def fits (n k : Nat) : Option (BitVec n) := if k < 2 ^ n then some (BitVec.ofNat n k) else none

/-- The command word of a written line. Addresses and data are normalised (R18); an index, an interrupt bit, a selector, a
cycle count or a frame step that does not fit its field has no command word (R93). -/
def Command.assemble : Command → Option CommandWord
  | .rd a => some (word 0x00 (normAddr a) 0)
  | .wr a v => some (word 0x01 (normAddr a) ((normByte v).setWidth 16))
  | .peek a => some (word 0x02 (normAddr a) 0)
  | .rd16 a => some (word 0x03 (normAddr a) 0)
  | .wr16 a v => some (word 0x04 (normAddr a) (normHalf v))
  | .reqint bit => (fits 16 bit).map fun b => word 0x05 b 0
  | .reset => some (word 0x06 0 0)
  | .tick => some (word 0x07 0 0)
  | .loadcart cart => (fits 16 cart).map fun c => word 0x08 c 0
  | .nwr index v => (fits 16 index).map fun i => word 0x10 i ((normByte v).setWidth 16)
  | .nrd index => (fits 16 index).map fun i => word 0x11 i 0
  | .nadv cycles => (fits 32 cycles).map fun c => word 0x12 (c.extractLsb' 16 16) (c.extractLsb' 0 16)
  | .nclklen => some (word 0x13 0 0)
  | .nclkenv => some (word 0x14 0 0)
  | .nenabled => some (word 0x15 0 0)
  | .nsample => some (word 0x16 0 0)
  | .fs step => (fits 3 step).map fun k => word 0x17 0 (k.setWidth 16)

/-! ## The opcode table's numbering -/

/-- The command word of an opcode-table instruction of `nbits` bits numbered as the table numbers them: bit 0 of the table
is `CW[0]`, `op` is bits 39 to 32; bits at and above `nbits` are 0 (R90, R94). -/
def tableWord (nbits w : Nat) : CommandWord := BitVec.ofNat 40 (w % 2 ^ nbits)

/-- What the decoder reads from a table word, for the default parameters the table is drawn for (R94). -/
def decodeTableWord (nbits w : Nat) : Option Instr :=
  match decode Params.default (tableWord nbits w) with
  | .ok i => some i
  | .error _ => none

end Sys2Proof
end

