-- ==== Sys2Proof/Machine/State.lean ====
section
/-! DEFINITION. The state of the machine as plain data, its value at power-on, and the reasons a step can stop. -/

namespace Sys2Proof.Machine

/-- A byte array as a list of (index, byte) cells: indices strictly rising, no cell holding what an unlisted index reads
as, which is 0x00 (R51: every array is zero after RESET). `Memory.wf` says so. -/
abbrev Memory := List Host.Cell

/-- The attached cartridge mapper `M(cart)` and the number of its hidden state (R29, R173; log 3). -/
structure MapperRef where
  cart : BitVec 16
  hidden : Nat
deriving DecidableEq, Repr

/-- AddressSpace: exactly five byte arrays, three registers and the mapper reference (R20). -/
structure AddressSpace where
  /-- video RAM, 8192 bytes (R21) -/
  vram : Memory
  /-- working RAM bank 0, 4096 bytes (R22) -/
  wram0 : Memory
  /-- working RAM bank 1, 4096 bytes (R23) -/
  wram1 : Memory
  /-- object-attribute memory, 160 bytes (R24) -/
  oam : Memory
  /-- high RAM, 128 bytes of which 127 are reachable (R25; log 10) -/
  hram : Memory
  /-- interrupt-enable register (R26) -/
  ie : Byte
  /-- `IF[4:0]`; bits 7:5 are not stored (R27) -/
  iflag : BitVec 5
  /-- `KEY1[0]`, stored but inert (R28) -/
  key1 : BitVec 1
  /-- the attached mapper, or none (R29) -/
  mapper : Option MapperRef
deriving DecidableEq, Repr

/-- NoiseChannel (R40). Integers are mathematical integers (R47). -/
structure NoiseChannel where
  /-- length/initial-settings (R41) -/
  nr0 : Byte
  /-- envelope (R42) -/
  nr1 : Byte
  /-- polynomial/divisor (R43) -/
  nr2 : Byte
  /-- trigger/length-enable (R44) -/
  nr3 : Byte
  /-- channel active (R46) -/
  en : Bool
  /-- envelope volume (R47) -/
  vol : Nat
  /-- envelope counter (R47) -/
  envctr : Int
  /-- length counter (R47) -/
  len : Nat
  /-- countdown divider (R47) -/
  div : Int
  /-- the 15-bit shift register (R48) -/
  lfsr : Lfsr
deriving DecidableEq, Repr

/-- The hidden states of the fixed collaborators (R12, R30), numbered, and of the persistent storage that `saveRam()`
flushes to (R12). The MODEL's own fields (log 3, 4). -/
structure PortStates where
  video : Nat
  audio : Nat
  timer : Nat
  joypad : Nat
  serial : Nat
  dma : Nat
  storage : Nat
deriving DecidableEq, Repr

/-- The two directions of a bus access (R121). -/
inductive AccessKind where
  | read
  | write
deriving DecidableEq, Repr

/-- What an operation lets the outside see, in order: an UnmappedAccess diagnostic (R231, R233) or a call on a
collaborator port (R12). -/
inductive Event where
  | diag (kind : AccessKind) (a : Addr)
  | call (port : Port) (c : PortCall)
deriving DecidableEq, Repr

/-- The datum an operation responds with (R9): none, a byte, a 16-bit datum, the enabled flag, or a sample (R217, D32). -/
inductive Datum where
  | none
  | byte (v : Byte)
  | half (v : Half)
  | flag (b : Bool)
  | sample (n : Nat)
deriving DecidableEq, Repr

/-- The response of one operation: its datum, its diagnostic bit and its events, oldest first (R9, R231). The MODEL's own
field: an output of the block, kept in the state until the next operation starts (log 2). -/
structure Output where
  datum : Datum
  diag : Bool
  events : List Event
deriving DecidableEq, Repr

/-- The response of an operation that has not yet said anything. -/
def Output.empty : Output := ⟨.none, false, []⟩

/-- The machine: the two components, and what the spec has outside them that an operation reads. -/
structure State where
  space : AddressSpace
  noise : NoiseChannel
  /-- the collaborators' hidden states (log 3, 4) -/
  ports : PortStates
  /-- the input `fs_step` (R49, R210; log 7) -/
  fsStep : BitVec 3
  /-- the block's parameters; no operation changes them (R14; log 5) -/
  params : Params
  /-- selectors for which the external parser yields no mapper; no operation changes them (R173, D25; log 6) -/
  rejectedCarts : List (BitVec 16)
  /-- command words issued and not yet processed, oldest first (R8, D33; log 1) -/
  pending : List CommandWord
  /-- the response of the last operation (log 2) -/
  out : Output
deriving DecidableEq, Repr

/-- The fatal faults (R230, R232): the run ends. -/
inductive Fault where
  /-- Raised for an NWR or NRD command whose index is not 0..3 (R198, R234). SAFE: the spec says the machine aborts. -/
  | invalidRegisterIndex (index : BitVec 16)
  /-- Raised by RD, WR, PEEK and the halves of RD16, WR16 in a mapper window while no mapper is attached (R235). SAFE: the
  spec says the machine aborts. -/
  | missingBackend (a : Addr)
deriving DecidableEq, Repr

/-- The commands the model gives no meaning. -/
inductive Refusal where
  /-- Raised by an arm of `exec` that has no meaning yet; no arm is in that case. SAFE. -/
  | notModelled (mnemonic : String)
  /-- Raised by LOADCART of a selector for which the external parser yields no mapper (R173, D25, U10). SAFE. -/
  | cartRejected (cart : BitVec 16)
  /-- Raised for a command word with a reserved `op` (R96, U8). SAFE: that encoding space is the spec's own. -/
  | reservedOp (op : Byte)
deriving DecidableEq, Repr

/-- AddressSpace at power-on and after RESET (R51). -/
def AddressSpace.reset : AddressSpace where
  vram := []
  wram0 := []
  wram1 := []
  oam := []
  hram := []
  ie := 0
  iflag := 0
  key1 := 0
  mapper := none

/-- NoiseChannel at power-on (R52, the spec's decision D12; log 8). -/
def NoiseChannel.reset : NoiseChannel where
  nr0 := 0
  nr1 := 0
  nr2 := 0
  nr3 := 0
  en := false
  vol := 0
  envctr := 0
  len := 0
  div := 0
  lfsr := 0

/-- The machine at power-on (R51, R52, R260). DESIGN CHOICE for what the spec gives no value: the frame step (log 7), the
numbers of the collaborators' hidden states (log 9), no rejected selector (log 6), nothing issued (log 1), no response
(log 2). PRESUMED for the parameters: the defaults (log 5). -/
def State.reset : State where
  space := AddressSpace.reset
  noise := NoiseChannel.reset
  ports := ⟨0, 0, 0, 0, 0, 0, 0⟩
  fsStep := 0
  params := Params.default
  rejectedCarts := []
  pending := []
  out := Output.empty

end Sys2Proof.Machine
end

