-- ==== Sys2Proof/Machine/Operands.lean ====
section
/-! DEFINITION. Operand forms: the byte of a backing array that an address names (R61, R66), the halves of a 16-bit access
(R74, R75), and the views of the NoiseChannel registers (R42 to R44). -/

namespace Sys2Proof.Machine

/-! ## Backing arrays -/

/-- The five byte arrays AddressSpace owns (R19, R20). -/
inductive Backing where
  | vram
  | wram0
  | wram1
  | oam
  | hram
deriving DecidableEq, Repr

/-- The number of bytes of an array (R21 to R25). -/
def Backing.size : Backing → Nat
  | .vram => Config.vramSize
  | .wram0 => Config.wramSize
  | .wram1 => Config.wramSize
  | .oam => Config.oamSize
  | .hram => Config.hramSize

/-- One storage byte: an array and an index into it. -/
structure Location where
  array : Backing
  index : Nat
deriving DecidableEq, Repr

/-- `VRAM[a - 0x8000]` (R21). -/
def vramAt (a : Addr) : Location := ⟨.vram, (a - 0x8000).toNat⟩
/-- `WRAM0[a - 0xC000]` (R22). -/
def wram0At (a : Addr) : Location := ⟨.wram0, (a - 0xC000).toNat⟩
/-- `WRAM1[a - 0xD000]` (R23). -/
def wram1At (a : Addr) : Location := ⟨.wram1, (a - 0xD000).toNat⟩
/-- The echo region: `WRAM0[a - 0xE000]` below 0xF000, else `WRAM1[a - 0xF000]` (R66, R127, C2). -/
def echoAt (a : Addr) : Location :=
  if a.toNat < 0xF000 then ⟨.wram0, (a - 0xE000).toNat⟩ else ⟨.wram1, (a - 0xF000).toNat⟩
/-- `OAM[a - 0xFE00]` (R24). -/
def oamAt (a : Addr) : Location := ⟨.oam, (a - 0xFE00).toNat⟩
/-- `HRAM[a - 0xFF80]` (R25). -/
def hramAt (a : Addr) : Location := ⟨.hram, (a - 0xFF80).toNat⟩

/-! ## 16-bit accesses -/

/-- The address of the second byte, `(a + 1) & 0xFFFF` (R75). -/
def nextAddr (a : Addr) : Addr := a + 1

/-- The low byte, at the lower address (R74). -/
def lowByte (v : Half) : Byte := v.extractLsb' 0 8

/-- The high byte (R74). -/
def highByte (v : Half) : Byte := v.extractLsb' 8 8

/-- `(hi << 8) | lo` (R162). -/
def joinBytes (hi lo : Byte) : Half := hi ++ lo

/-! ## Ports -/

/-- The port of a low I/O handler (R30). -/
def handlerPort : LowIoHandler → Port
  | .joypad => .joypad
  | .serial => .serial
  | .timer => .timer

/-! ## Views of the NoiseChannel registers -/

/-- `ivol = nr[1][7:4]` (R42). -/
def ivol (n : NoiseChannel) : Nat := (n.nr1.extractLsb' 4 4).toNat
/-- `edir`: +1 if `nr[1][3] = 1`, else −1 (R42). -/
def edir (n : NoiseChannel) : Int := if n.nr1.getLsbD 3 then 1 else -1
/-- `eper = nr[1][2:0]` (R42). -/
def eper (n : NoiseChannel) : Nat := (n.nr1.extractLsb' 0 3).toNat
/-- `dcode = nr[2][2:0]` (R43). -/
def dcode (n : NoiseChannel) : BitVec 3 := n.nr2.extractLsb' 0 3
/-- `wmode = nr[2][3]` (R43). -/
def wmode (n : NoiseChannel) : Bool := n.nr2.getLsbD 3
/-- `cshift = nr[2][7:4]` (R43). -/
def cshift (n : NoiseChannel) : Nat := (n.nr2.extractLsb' 4 4).toNat
/-- `lenen = nr[3][6]`: LEN_EN_BIT is 6 (R44, C1). -/
def lenen (n : NoiseChannel) : Bool := n.nr3.getLsbD 6

/-- BASE_PERIOD (R14, R212). -/
def basePeriod (code : BitVec 3) : Nat :=
  match code.toNat with
  | 0 => 8
  | 1 => 16
  | 2 => 32
  | 3 => 48
  | 4 => 64
  | 5 => 80
  | 6 => 96
  | _ => 112

/-- `P = BASE_PERIOD[dcode] << cshift`, an exact multiplication (R212). -/
def period (n : NoiseChannel) : Nat := basePeriod (dcode n) * 2 ^ cshift n

/-- The reload value of the envelope counter: `eper`, or 8 when it is 0 (R189, R215). -/
def envReload (n : NoiseChannel) : Nat := if eper n ≠ 0 then eper n else Config.envZeroPeriod

/-- LENGTH_STEP (R14, R187). -/
def isLengthStep (p : Params) (step : BitVec 3) : Bool := p.lengthSteps.contains step

end Sys2Proof.Machine
end

