-- ==== Sys2Proof/Machine/Flags.lean ====
section
/-! DEFINITION. Flags and forced bits: the DAC-enabled condition, the enabled flag (R45, R46), the sample gate (R217), and
the register bits that read as constants (R27, R28, R95). The block has no arithmetic condition codes (R35). -/

namespace Sys2Proof.Machine

/-- `dac_on = (nr[1] & 0xF8) != 0` (R45, C4). -/
def dacOn (n : NoiseChannel) : Bool := n.nr1 &&& 0xF8 != 0

/-- The enabled flag forced false where `dac_on` is false (R46, R182, R192). -/
def forceDac (n : NoiseChannel) : NoiseChannel := { n with en := n.en && dacOn n }

/-- The byte a read of the interrupt-flag register returns: `0xE0 | IF[4:0]` (R27, R130). -/
def ifRead (f : BitVec 5) : Byte := 0xE0 ||| f.setWidth 8

/-- What a write of the interrupt-flag register stores: `v[4:0]` (R27, R149). -/
def ifStore (v : Byte) : BitVec 5 := v.extractLsb' 0 5

/-- The byte a read of the speed-mode register returns, whatever is stored (R28, R131). -/
def key1Read (_ : BitVec 1) : Byte := 0x00

/-- What a write of the speed-mode register stores: `v[0]` (R28, R150). -/
def key1Store (v : Byte) : BitVec 1 := v.extractLsb' 0 1

/-- RMASK of R193: the bits of register 0 to 3 that read as 1 (R95). -/
def readMask (index : Fin 4) : Byte :=
  match index with
  | 0 => 0xFF
  | 1 => 0x00
  | 2 => 0x00
  | 3 => 0xBF

/-- The sample: 0 if disabled, else the volume where `lfsr[0] = 0` and 0 where it is 1 (R217). -/
def sampleOf (n : NoiseChannel) : Nat :=
  if n.en then (if n.lfsr.getLsbD 0 then 0 else n.vol) else 0

end Sys2Proof.Machine
end

