-- ==== Sys2Proof/Machine/Ops.lean ====
section
/-! DEFINITION. The named operations over memory, registers, ports and the command sequence; raising a fault as one shared
operation. Every meaning is written over these. -/

namespace Sys2Proof.Machine

/-! ## Memory -/

/-- The byte at an index: 0x00 where nothing is listed (R51). -/
def Memory.read (m : Memory) (i : Nat) : Byte :=
  match m with
  | [] => 0
  | c :: rest => if c.1 = i then c.2 else Memory.read rest i

/-- Put a cell where the rising order wants it. -/
def Memory.insert (m : Memory) (i : Nat) (v : Byte) : Memory :=
  match m with
  | [] => [(i, v)]
  | c :: rest => if i < c.1 then (i, v) :: c :: rest else c :: Memory.insert rest i v

/-- Write one byte, keeping the canonical form: the value an unlisted index reads as is not listed. -/
def Memory.write (m : Memory) (i : Nat) (v : Byte) : Memory :=
  let others := m.filter fun c => c.1 != i
  if v = 0 then others else Memory.insert others i v

/-- The canonical form from index `lo` on, in an array of `size` bytes: indices rising and in range, no cell 0x00. -/
def Memory.wfFrom (size lo : Nat) (m : Memory) : Bool :=
  match m with
  | [] => true
  | c :: rest => decide (lo ≤ c.1) && decide (c.1 < size) && decide (c.2 ≠ 0) && Memory.wfFrom size (c.1 + 1) rest

/-- The canonical form of an array of `size` bytes. -/
def Memory.wf (size : Nat) (m : Memory) : Bool := Memory.wfFrom size 0 m

/-! ## Backing arrays -/

/-- The contents of a backing array. -/
def State.array (s : State) (b : Backing) : Memory :=
  match b with
  | .vram => s.space.vram
  | .wram0 => s.space.wram0
  | .wram1 => s.space.wram1
  | .oam => s.space.oam
  | .hram => s.space.hram

/-- Replace the contents of a backing array. -/
def State.setArray (s : State) (b : Backing) (m : Memory) : State :=
  match b with
  | .vram => { s with space := { s.space with vram := m } }
  | .wram0 => { s with space := { s.space with wram0 := m } }
  | .wram1 => { s with space := { s.space with wram1 := m } }
  | .oam => { s with space := { s.space with oam := m } }
  | .hram => { s with space := { s.space with hram := m } }

/-- Read one storage byte. -/
def State.byteAt (s : State) (l : Location) : Byte := Memory.read (s.array l.array) l.index

/-- Write one storage byte. The arrays never change size (R32): an index outside the array, which no decoded operation has,
writes nothing (log 12). -/
def State.setByte (s : State) (l : Location) (v : Byte) : State :=
  if l.index < l.array.size then s.setArray l.array (Memory.write (s.array l.array) l.index v) else s

/-- Every array is in canonical form. -/
def State.memWf (s : State) : Bool :=
  Memory.wf Config.vramSize s.space.vram && Memory.wf Config.wramSize s.space.wram0 &&
    Memory.wf Config.wramSize s.space.wram1 && Memory.wf Config.oamSize s.space.oam &&
    Memory.wf Config.hramSize s.space.hram

/-! ## Registers -/

/-- Store the interrupt-enable register, all eight bits (R157). -/
def State.setIe (s : State) (v : Byte) : State := { s with space := { s.space with ie := v } }

/-- Store `IF[4:0]` (R27). -/
def State.setIflag (s : State) (f : BitVec 5) : State := { s with space := { s.space with iflag := f } }

/-- Store `KEY1[0]` (R28). -/
def State.setKey1 (s : State) (k : BitVec 1) : State := { s with space := { s.space with key1 := k } }

/-- Attach or detach a mapper (R29). -/
def State.setMapper (s : State) (m : Option MapperRef) : State := { s with space := { s.space with mapper := m } }

/-- Replace the NoiseChannel. -/
def State.setNoise (s : State) (n : NoiseChannel) : State := { s with noise := n }

/-! ## Responses -/

/-- An operation starts with an empty response (log 2). -/
def State.begin (s : State) : State := { s with out := Output.empty }

/-- Append an event to the response. -/
def State.emit (s : State) (e : Event) : State := { s with out := { s.out with events := s.out.events ++ [e] } }

/-- `diag(UnmappedAccess, a)`: the diagnostic bit and the event (R231, R233). -/
def State.diagnose (s : State) (kind : AccessKind) (a : Addr) : State :=
  { s with out := { s.out with diag := true, events := s.out.events ++ [.diag kind a] } }

/-- Give the response its datum (R17: `return v`). -/
def State.respond (s : State) (d : Datum) : State := { s with out := { s.out with datum := d } }

/-! ## Raising a fault -/

/-- `raise <Fault>(info)` (R17, R230): the operation ends with the fault and the run with it. The block performs no trap
entry and has no return from a fault: nothing is saved, no mode changes, nothing is vectored (R239, R240). -/
def raise {α : Type} (f : Fault) : Except Fault α := .error f

/-- The outcome of an operation that returns no datum. -/
def finish (r : Except Fault State) : Host.Outcome State Fault Refusal :=
  match r with
  | .ok s => .next s
  | .error f => .fault f

/-- The outcome of an operation that returns a byte. -/
def finishByte (r : Except Fault (Byte × State)) : Host.Outcome State Fault Refusal :=
  match r with
  | .ok vs => .next (vs.2.respond (.byte vs.1))
  | .error f => .fault f

/-! ## Collaborator ports -/

/-- The number of a collaborator's hidden state. The mapper port is the attached mapper's (R29). -/
def State.hidden (s : State) (port : Port) : Nat :=
  match port with
  | .mapper _ => match s.space.mapper with
    | some m => m.hidden
    | none => 0
  | .video => s.ports.video
  | .audio => s.ports.audio
  | .timer => s.ports.timer
  | .joypad => s.ports.joypad
  | .serial => s.ports.serial
  | .dma => s.ports.dma

/-- Move a collaborator to another hidden state. -/
def State.setHidden (s : State) (port : Port) (st : Nat) : State :=
  match port with
  | .mapper _ => s.setMapper (s.space.mapper.map fun m => { m with hidden := st })
  | .video => { s with ports := { s.ports with video := st } }
  | .audio => { s with ports := { s.ports with audio := st } }
  | .timer => { s with ports := { s.ports with timer := st } }
  | .joypad => { s with ports := { s.ports with joypad := st } }
  | .serial => { s with ports := { s.ports with serial := st } }
  | .dma => { s with ports := { s.ports with dma := st } }

/-- A call that may change the collaborator's state (R12): the event, and the free next hidden state (log 3). -/
def State.callPort (s : State) (port : Port) (c : PortCall) : State :=
  (s.emit (.call port c)).setHidden port (Config.portAfter port c (s.hidden port))

/-- `P.read(a)` (R12). -/
def portRead (port : Port) (a : Addr) (s : State) : Byte × State :=
  (Config.portRead port (s.hidden port) a, s.callPort port (.read a))

/-- `P.peek(a)`: what `read(a)` would return now, and no change of the collaborator (R13, R161). -/
def portPeek (port : Port) (a : Addr) (s : State) : Byte × State :=
  (Config.portRead port (s.hidden port) a, s.emit (.call port (.peek a)))

/-- `P.write(a, v)` (R12). -/
def portWrite (port : Port) (a : Addr) (v : Byte) (s : State) : State := s.callPort port (.write a v)

/-- `P.reset()` (R12). -/
def portReset (port : Port) (s : State) : State := s.callPort port .reset

/-- A mapper-window access (R62, R64): the fault MissingBackend while no mapper is attached (R235), else `k` on its port. -/
def withMapper {α : Type} (a : Addr) (s : State) (k : Port → α) : Except Fault α :=
  match s.space.mapper with
  | none => raise (.missingBackend a)
  | some m => .ok (k (.mapper m.cart))

/-- `mapper.saveRam()`: persistent storage takes what the mapper flushes (R12, R173; log 4). -/
def saveRam (m : MapperRef) (s : State) : State :=
  { s.emit (.call (.mapper m.cart) .saveRam) with
    ports := { s.ports with storage := Config.storageAfter m.cart m.hidden s.ports.storage } }

/-! ## Byte accesses by region -/

/-- An unmapped read: the diagnostic, and 0x00 (R135). -/
def unmappedRead (a : Addr) (s : State) : Byte × State := (0x00, s.diagnose .read a)

/-- A read of a low I/O address (R134); with no registered handler the address is unmapped (R71). -/
def lowIoRead (a : Addr) (s : State) : Byte × State :=
  match lowIoHandler s.params a with
  | some h => portRead (handlerPort h) a s
  | none => unmappedRead a s

/-- A peek of a low I/O address (R161). -/
def lowIoPeek (a : Addr) (s : State) : Byte × State :=
  match lowIoHandler s.params a with
  | some h => portPeek (handlerPort h) a s
  | none => unmappedRead a s

/-- A write of a low I/O address (R154). -/
def lowIoWrite (a : Addr) (v : Byte) (s : State) : State :=
  match lowIoHandler s.params a with
  | some h => portWrite (handlerPort h) a v s
  | none => s.diagnose .write a

/-- The read of each destination (R122 to R137). -/
def readRegion (r : Region) (a : Addr) (s : State) : Except Fault (Byte × State) :=
  match r with
  | .rom => withMapper a s fun port => portRead port a s
  | .vram => .ok (s.byteAt (vramAt a), s)
  | .extram => withMapper a s fun port => portRead port a s
  | .wram0 => .ok (s.byteAt (wram0At a), s)
  | .wram1 => .ok (s.byteAt (wram1At a), s)
  | .echo => .ok (s.byteAt (echoAt a), s)
  | .oam => .ok (s.byteAt (oamAt a), s)
  | .unusable => .ok (0x00, s)
  | .lowio => .ok (lowIoRead a s)
  | .ifReg => .ok (ifRead s.space.iflag, s)
  | .sound => .ok (portRead .audio a s)
  | .video => .ok (portRead .video a s)
  | .key1 => .ok (key1Read s.space.key1, s)
  | .ioUnmapped => .ok (unmappedRead a s)
  | .hram => .ok (s.byteAt (hramAt a), s)
  | .ie => .ok (s.space.ie, s)

/-- The peek of each destination: that of a read, with `P.peek` in the place of `P.read` (R160, R161). -/
def peekRegion (r : Region) (a : Addr) (s : State) : Except Fault (Byte × State) :=
  match r with
  | .rom => withMapper a s fun port => portPeek port a s
  | .extram => withMapper a s fun port => portPeek port a s
  | .lowio => .ok (lowIoPeek a s)
  | .sound => .ok (portPeek .audio a s)
  | .video => .ok (portPeek .video a s)
  | owned => readRegion owned a s

/-- The write of each destination (R141 to R157). -/
def writeRegion (d : WriteDest) (a : Addr) (v : Byte) (s : State) : Except Fault State :=
  match d with
  | .dma => .ok (portWrite .dma a v s)
  | .region .rom => withMapper a s fun port => portWrite port a v s
  | .region .vram => .ok (s.setByte (vramAt a) v)
  | .region .extram => withMapper a s fun port => portWrite port a v s
  | .region .wram0 => .ok (s.setByte (wram0At a) v)
  | .region .wram1 => .ok (s.setByte (wram1At a) v)
  | .region .echo => .ok (s.setByte (echoAt a) v)
  | .region .oam => .ok (s.setByte (oamAt a) v)
  | .region .unusable => .ok s
  | .region .lowio => .ok (lowIoWrite a v s)
  | .region .ifReg => .ok (s.setIflag (ifStore v))
  | .region .sound => .ok (portWrite .audio a v s)
  | .region .video => .ok (portWrite .video a v s)
  | .region .key1 => .ok (s.setKey1 (key1Store v))
  | .region .ioUnmapped => .ok (s.diagnose .write a)
  | .region .hram => .ok (s.setByte (hramAt a) v)
  | .region .ie => .ok (s.setIe v)

/-- `MemRead(a, 1)`: a complete RD (R17, R120). -/
def memRead (a : Addr) (s : State) : Except Fault (Byte × State) := readRegion (decodeRead s.params a) a s

/-- `MemWrite(a, 1, v)`: a complete WR (R17, R140). -/
def memWrite (a : Addr) (v : Byte) (s : State) : Except Fault State := writeRegion (decodeWrite s.params a) a v s

/-! ## The command sequence -/

/-- The oldest command word issued and not yet processed, and the state with it taken (R8, D33; log 1). -/
def fetch (s : State) : Option (CommandWord × State) :=
  match s.pending with
  | [] => none
  | w :: rest => some (w, { s with pending := rest })

/-- Nothing is issued: the block holds its state (R247; log 1). -/
def idle (s : State) : Host.Outcome State Fault Refusal := .next s

/-- The outcome of a command word that selects no operation (R96): the fault of R198, or a refusal by name. -/
def rejected (e : DecodeError) : Host.Outcome State Fault Refusal :=
  match e with
  | .invalidIndex index => .fault (.invalidRegisterIndex index)
  | .reservedOp op => .refused (.reservedOp op)

/-- Put a command word where the next step takes it from (log 1). -/
def issue (w : CommandWord) (s : State) : State := { s with pending := w :: s.pending }

end Sys2Proof.Machine
end

