-- ==== Sys2Proof/Machine/BusHalf.lean ====
section
/-! DEFINITION. RD16 and WR16, the little-endian 16-bit composites (R74 to R76, R162, R163). -/

namespace Sys2Proof.Machine

/-- RD16 (R162): two complete byte reads, low byte first. -/
def execRd16 (a : Addr) (s : State) : Host.Outcome State Fault Refusal :=
  match memRead a s.begin with
  | .error f => .fault f
  | .ok lo =>
    match memRead (nextAddr a) lo.2 with
    | .error f => .fault f
    | .ok hi => .next (hi.2.respond (.half (joinBytes hi.1 lo.1)))

/-- WR16 (R163): two complete byte writes, low byte first. Where the second faults the first has happened, and the fault
ends the run (R76, D28; log 11). -/
def execWr16 (a : Addr) (v : Half) (s : State) : Host.Outcome State Fault Refusal :=
  match memWrite a (lowByte v) s.begin with
  | .error f => .fault f
  | .ok t => finish (memWrite (nextAddr a) (highByte v) t)


end Sys2Proof.Machine
end

