-- ==== Sys2Proof/Machine/BusPeek.lean ====
section
/-! DEFINITION. PEEK: one meaning per destination region (R160, R161). -/

namespace Sys2Proof.Machine

/-- PEEK.ROM (R161). -/
def execPeekRom (a : Addr) (s : State) : Host.Outcome State Fault Refusal :=
  finishByte (peekRegion .rom a s.begin)

/-- PEEK.VRAM (R160). -/
def execPeekVram (a : Addr) (s : State) : Host.Outcome State Fault Refusal :=
  finishByte (peekRegion .vram a s.begin)

/-- PEEK.EXTRAM (R161). -/
def execPeekExtram (a : Addr) (s : State) : Host.Outcome State Fault Refusal :=
  finishByte (peekRegion .extram a s.begin)

/-- PEEK.WRAM0 (R160). -/
def execPeekWram0 (a : Addr) (s : State) : Host.Outcome State Fault Refusal :=
  finishByte (peekRegion .wram0 a s.begin)

/-- PEEK.WRAM1 (R160). -/
def execPeekWram1 (a : Addr) (s : State) : Host.Outcome State Fault Refusal :=
  finishByte (peekRegion .wram1 a s.begin)

/-- PEEK.ECHO (R160). -/
def execPeekEcho (a : Addr) (s : State) : Host.Outcome State Fault Refusal :=
  finishByte (peekRegion .echo a s.begin)

/-- PEEK.OAM (R160). -/
def execPeekOam (a : Addr) (s : State) : Host.Outcome State Fault Refusal :=
  finishByte (peekRegion .oam a s.begin)

/-- PEEK.UNUSABLE (R160). -/
def execPeekUnusable (a : Addr) (s : State) : Host.Outcome State Fault Refusal :=
  finishByte (peekRegion .unusable a s.begin)

/-- PEEK.LOWIO (R161). -/
def execPeekLowio (a : Addr) (s : State) : Host.Outcome State Fault Refusal :=
  finishByte (peekRegion .lowio a s.begin)

/-- PEEK.IF (R160). -/
def execPeekIf (a : Addr) (s : State) : Host.Outcome State Fault Refusal :=
  finishByte (peekRegion .ifReg a s.begin)

/-- PEEK.SOUND (R161). -/
def execPeekSound (a : Addr) (s : State) : Host.Outcome State Fault Refusal :=
  finishByte (peekRegion .sound a s.begin)

/-- PEEK.VIDEO (R161). -/
def execPeekVideo (a : Addr) (s : State) : Host.Outcome State Fault Refusal :=
  finishByte (peekRegion .video a s.begin)

/-- PEEK.KEY1 (R160). -/
def execPeekKey1 (a : Addr) (s : State) : Host.Outcome State Fault Refusal :=
  finishByte (peekRegion .key1 a s.begin)

/-- PEEK.IOUNMAPPED (R160). -/
def execPeekIounmapped (a : Addr) (s : State) : Host.Outcome State Fault Refusal :=
  finishByte (peekRegion .ioUnmapped a s.begin)

/-- PEEK.HRAM (R160). -/
def execPeekHram (a : Addr) (s : State) : Host.Outcome State Fault Refusal :=
  finishByte (peekRegion .hram a s.begin)

/-- PEEK.IE (R160). -/
def execPeekIe (a : Addr) (s : State) : Host.Outcome State Fault Refusal :=
  finishByte (peekRegion .ie a s.begin)


end Sys2Proof.Machine
end

