-- ==== Sys2Proof/Machine/BusRead.lean ====
section
/-! DEFINITION. RD: one meaning per destination region (R120, R122 to R137). -/

namespace Sys2Proof.Machine

/-- RD.ROM (R122). -/
def execRdRom (a : Addr) (s : State) : Host.Outcome State Fault Refusal :=
  finishByte (readRegion .rom a s.begin)

/-- RD.VRAM (R123). -/
def execRdVram (a : Addr) (s : State) : Host.Outcome State Fault Refusal :=
  finishByte (readRegion .vram a s.begin)

/-- RD.EXTRAM (R124). -/
def execRdExtram (a : Addr) (s : State) : Host.Outcome State Fault Refusal :=
  finishByte (readRegion .extram a s.begin)

/-- RD.WRAM0 (R125). -/
def execRdWram0 (a : Addr) (s : State) : Host.Outcome State Fault Refusal :=
  finishByte (readRegion .wram0 a s.begin)

/-- RD.WRAM1 (R126). -/
def execRdWram1 (a : Addr) (s : State) : Host.Outcome State Fault Refusal :=
  finishByte (readRegion .wram1 a s.begin)

/-- RD.ECHO (R127). -/
def execRdEcho (a : Addr) (s : State) : Host.Outcome State Fault Refusal :=
  finishByte (readRegion .echo a s.begin)

/-- RD.OAM (R128). -/
def execRdOam (a : Addr) (s : State) : Host.Outcome State Fault Refusal :=
  finishByte (readRegion .oam a s.begin)

/-- RD.UNUSABLE (R129). -/
def execRdUnusable (a : Addr) (s : State) : Host.Outcome State Fault Refusal :=
  finishByte (readRegion .unusable a s.begin)

/-- RD.LOWIO (R134). -/
def execRdLowio (a : Addr) (s : State) : Host.Outcome State Fault Refusal :=
  finishByte (readRegion .lowio a s.begin)

/-- RD.IF (R130). -/
def execRdIf (a : Addr) (s : State) : Host.Outcome State Fault Refusal :=
  finishByte (readRegion .ifReg a s.begin)

/-- RD.SOUND (R132). -/
def execRdSound (a : Addr) (s : State) : Host.Outcome State Fault Refusal :=
  finishByte (readRegion .sound a s.begin)

/-- RD.VIDEO (R133). -/
def execRdVideo (a : Addr) (s : State) : Host.Outcome State Fault Refusal :=
  finishByte (readRegion .video a s.begin)

/-- RD.KEY1 (R131). -/
def execRdKey1 (a : Addr) (s : State) : Host.Outcome State Fault Refusal :=
  finishByte (readRegion .key1 a s.begin)

/-- RD.IOUNMAPPED (R135). -/
def execRdIounmapped (a : Addr) (s : State) : Host.Outcome State Fault Refusal :=
  finishByte (readRegion .ioUnmapped a s.begin)

/-- RD.HRAM (R136). -/
def execRdHram (a : Addr) (s : State) : Host.Outcome State Fault Refusal :=
  finishByte (readRegion .hram a s.begin)

/-- RD.IE (R137). -/
def execRdIe (a : Addr) (s : State) : Host.Outcome State Fault Refusal :=
  finishByte (readRegion .ie a s.begin)


end Sys2Proof.Machine
end

