-- ==== Sys2Proof/Machine/BusWrite.lean ====
section
/-! DEFINITION. WR: one meaning per destination (R140 to R157). -/

namespace Sys2Proof.Machine

/-- WR.ROM (R141). -/
def execWrRom (a : Addr) (v : Byte) (s : State) : Host.Outcome State Fault Refusal :=
  finish (writeRegion (.region .rom) a v s.begin)

/-- WR.VRAM (R142). -/
def execWrVram (a : Addr) (v : Byte) (s : State) : Host.Outcome State Fault Refusal :=
  finish (writeRegion (.region .vram) a v s.begin)

/-- WR.EXTRAM (R143). -/
def execWrExtram (a : Addr) (v : Byte) (s : State) : Host.Outcome State Fault Refusal :=
  finish (writeRegion (.region .extram) a v s.begin)

/-- WR.WRAM0 (R144). -/
def execWrWram0 (a : Addr) (v : Byte) (s : State) : Host.Outcome State Fault Refusal :=
  finish (writeRegion (.region .wram0) a v s.begin)

/-- WR.WRAM1 (R145). -/
def execWrWram1 (a : Addr) (v : Byte) (s : State) : Host.Outcome State Fault Refusal :=
  finish (writeRegion (.region .wram1) a v s.begin)

/-- WR.ECHO (R146). -/
def execWrEcho (a : Addr) (v : Byte) (s : State) : Host.Outcome State Fault Refusal :=
  finish (writeRegion (.region .echo) a v s.begin)

/-- WR.OAM (R147). -/
def execWrOam (a : Addr) (v : Byte) (s : State) : Host.Outcome State Fault Refusal :=
  finish (writeRegion (.region .oam) a v s.begin)

/-- WR.UNUSABLE (R148). -/
def execWrUnusable (a : Addr) (v : Byte) (s : State) : Host.Outcome State Fault Refusal :=
  finish (writeRegion (.region .unusable) a v s.begin)

/-- WR.LOWIO (R154). -/
def execWrLowio (a : Addr) (v : Byte) (s : State) : Host.Outcome State Fault Refusal :=
  finish (writeRegion (.region .lowio) a v s.begin)

/-- WR.IF (R149). -/
def execWrIf (a : Addr) (v : Byte) (s : State) : Host.Outcome State Fault Refusal :=
  finish (writeRegion (.region .ifReg) a v s.begin)

/-- WR.SOUND (R152). -/
def execWrSound (a : Addr) (v : Byte) (s : State) : Host.Outcome State Fault Refusal :=
  finish (writeRegion (.region .sound) a v s.begin)

/-- WR.VIDEO (R153). -/
def execWrVideo (a : Addr) (v : Byte) (s : State) : Host.Outcome State Fault Refusal :=
  finish (writeRegion (.region .video) a v s.begin)

/-- WR.KEY1 (R150). -/
def execWrKey1 (a : Addr) (v : Byte) (s : State) : Host.Outcome State Fault Refusal :=
  finish (writeRegion (.region .key1) a v s.begin)

/-- WR.IOUNMAPPED (R155). -/
def execWrIounmapped (a : Addr) (v : Byte) (s : State) : Host.Outcome State Fault Refusal :=
  finish (writeRegion (.region .ioUnmapped) a v s.begin)

/-- WR.HRAM (R156). -/
def execWrHram (a : Addr) (v : Byte) (s : State) : Host.Outcome State Fault Refusal :=
  finish (writeRegion (.region .hram) a v s.begin)

/-- WR.IE (R157). -/
def execWrIe (a : Addr) (v : Byte) (s : State) : Host.Outcome State Fault Refusal :=
  finish (writeRegion (.region .ie) a v s.begin)

/-- WR.DMA (R151). -/
def execWrDma (a : Addr) (v : Byte) (s : State) : Host.Outcome State Fault Refusal :=
  finish (writeRegion .dma a v s.begin)


end Sys2Proof.Machine
end

