-- ==== Sys2Proof/Machine/NoiseClocks.lean ====
section
/-! DEFINITION. The NoiseChannel clock and output ports: NADV, NCLKLEN, NCLKENV, NENABLED, NSAMPLE, and the frame step FS (R210 to R217). -/

namespace Sys2Proof.Machine

/-- One LFSR shift (R213): bit 0 xor bit 1 enters bit 14, and in width mode replaces bit 6 too. -/
def lfsrShift (wide : Bool) (l : Lfsr) : Lfsr :=
  let b := l.getLsbD 0 ^^ l.getLsbD 1
  let shifted := (l >>> 1) ||| (if b then 0x4000 else 0)
  if wide then (shifted &&& 0x7FBF) ||| (if b then 0x0040 else 0) else shifted

/-- The loop of R211 on the divider and the LFSR, for a period `p`. `fuel` bounds the number of turns; every turn adds
`p >= 8` to the divider, so as many turns as the divider lies below 1 are enough. -/
def advanceLoop (p : Nat) (wide : Bool) (fuel : Nat) (d : Int) (l : Lfsr) : Int × Lfsr :=
  match fuel with
  | 0 => (d, l)
  | k + 1 => if d ≤ 0 then advanceLoop p wide k (d + p) (lfsrShift wide l) else (d, l)

/-- `advance(cycles)` (R211), for any natural number of cycles (R93, D17). -/
def advance (cycles : Nat) (n : NoiseChannel) : NoiseChannel :=
  let d := n.div - cycles
  let r := advanceLoop (period n) (wmode n) (1 - d).toNat d n.lfsr
  { n with div := r.1, lfsr := r.2 }

/-- NADV (R211); it runs whether or not the channel is enabled (D16). -/
def execNadv (cycles : Nat) (s : State) : Host.Outcome State Fault Refusal :=
  .next (s.begin.setNoise (advance cycles s.noise))

/-- `clockLength()` (R214). -/
def clockLength (n : NoiseChannel) : NoiseChannel :=
  if lenen n && n.len != 0 then { n with len := n.len - 1, en := n.en && n.len - 1 != 0 } else n

/-- NCLKLEN (R214). -/
def execNclklen (s : State) : Host.Outcome State Fault Refusal := .next (s.begin.setNoise (clockLength s.noise))

/-- The volume stepped by the direction, a step out of 0..15 discarded (R215). -/
def stepVolume (n : NoiseChannel) : Nat :=
  let nv := (n.vol : Int) + edir n
  if 0 ≤ nv ∧ nv ≤ Config.maxVolume then nv.toNat else n.vol

/-- `clockEnvelope()` (R215): the period and the direction are the register's now (D39), and the reload never adds 1 (D14). -/
def clockEnvelope (n : NoiseChannel) : NoiseChannel :=
  if n.envctr - 1 ≤ 0 then
    { n with envctr := envReload n, vol := if eper n ≠ 0 then stepVolume n else n.vol }
  else { n with envctr := n.envctr - 1 }

/-- NCLKENV (R215). -/
def execNclkenv (s : State) : Host.Outcome State Fault Refusal := .next (s.begin.setNoise (clockEnvelope s.noise))

/-- NENABLED (R216). -/
def execNenabled (s : State) : Host.Outcome State Fault Refusal := .next (s.begin.respond (.flag s.noise.en))

/-- NSAMPLE (R217). -/
def execNsample (s : State) : Host.Outcome State Fault Refusal := .next (s.begin.respond (.sample (sampleOf s.noise)))

/-- FS (R210): sets the input `fs_step`, no state of NoiseChannel. -/
def execFs (step : BitVec 3) (s : State) : Host.Outcome State Fault Refusal := .next { s.begin with fsStep := step }


end Sys2Proof.Machine
end

