-- ==== Sys2Proof/Machine/NoiseRegs.lean ====
section
/-! DEFINITION. The NoiseChannel register port: NWR, the trigger sequence, NRD (R180 to R197). -/

namespace Sys2Proof.Machine

/-! ## Register writes -/

/-- NWR 0 (R181): stores the raw value; only where LEN_LOAD_ON_REG0 is true does it load the length counter (D13). -/
def execNwr0 (v : Byte) (s : State) : Host.Outcome State Fault Refusal :=
  let stored := { s.noise with nr0 := v }
  .next (s.begin.setNoise
    (if s.params.lenLoadOnReg0 then { stored with len := Config.lenReload - (v.extractLsb' 0 6).toNat } else stored))

/-- NWR 1 (R182): stores, and forces the channel disabled where the DAC is off afterwards. -/
def execNwr1 (v : Byte) (s : State) : Host.Outcome State Fault Refusal :=
  .next (s.begin.setNoise (forceDac { s.noise with nr1 := v }))

/-- NWR 2 (R183): stores. -/
def execNwr2 (v : Byte) (s : State) : Host.Outcome State Fault Refusal :=
  .next (s.begin.setNoise { s.noise with nr2 := v })

/-- NWR 3 with the trigger bit clear (R184): stores. -/
def execNwr3 (v : Byte) (s : State) : Host.Outcome State Fault Refusal :=
  .next (s.begin.setNoise { s.noise with nr3 := v })

/-! ## The trigger sequence (R186) -/

/-- Step (1): re-enable the channel. -/
def triggerEnable (n : NoiseChannel) : NoiseChannel := { n with en := true }

/-- Step (2) (R187): a length counter that is 0 is reloaded, with 63 where the frame step does not clock length. -/
def triggerLength (p : Params) (step : BitVec 3) (n : NoiseChannel) : NoiseChannel :=
  if n.len = 0 then
    { n with len := if isLengthStep p step then Config.lenReload else Config.lenReload - 1 }
  else n

/-- Step (3) (R188): the divider takes the base period, without the clock shift. -/
def triggerDivider (n : NoiseChannel) : NoiseChannel := { n with div := basePeriod (dcode n) }

/-- Step (4) (R189): the envelope counter is reloaded, one more on step 7. -/
def triggerEnvelope (step : BitVec 3) (n : NoiseChannel) : NoiseChannel :=
  { n with envctr := envReload n + (if step = 7 then 1 else 0) }

/-- Step (5) (R190): the volume takes the initial volume. -/
def triggerVolume (n : NoiseChannel) : NoiseChannel := { n with vol := ivol n }

/-- Step (6) (R191): all 15 bits of the LFSR set. -/
def triggerLfsr (n : NoiseChannel) : NoiseChannel := { n with lfsr := 0x7FFF }

/-- Step (7) (R192): force-disable where the DAC is off. -/
def triggerDac (n : NoiseChannel) : NoiseChannel := forceDac n

/-- The seven steps in the order of R186; `fs_step` is sampled here and nowhere else (R49). -/
def trigger (p : Params) (step : BitVec 3) (n : NoiseChannel) : NoiseChannel :=
  triggerDac (triggerLfsr (triggerVolume (triggerEnvelope step (triggerDivider (triggerLength p step (triggerEnable n))))))

/-- `v & ~(1 << TRIG_BIT)` (R185). -/
def clearTrigger (p : Params) (v : Byte) : Byte := v &&& ~~~(BitVec.twoPow 8 p.trigBit)

/-- NWR 3 with the trigger bit set (R185): stores with the trigger bit cleared, then triggers. -/
def execNwr3Trig (v : Byte) (s : State) : Host.Outcome State Fault Refusal :=
  .next (s.begin.setNoise (trigger s.params s.fsStep { s.noise with nr3 := clearTrigger s.params v }))

/-! ## Register reads -/

/-- The stored register of an index (R193). -/
def storedReg (n : NoiseChannel) (index : Fin 4) : Byte :=
  match index with
  | 0 => n.nr0
  | 1 => n.nr1
  | 2 => n.nr2
  | 3 => n.nr3

/-- `nr[index] | RMASK[index]` (R193). -/
def readReg (n : NoiseChannel) (index : Fin 4) : Byte := storedReg n index ||| readMask index

/-- NRD 0 (R194). -/
def execNrd0 (s : State) : Host.Outcome State Fault Refusal := .next (s.begin.respond (.byte (readReg s.noise 0)))

/-- NRD 1 (R195). -/
def execNrd1 (s : State) : Host.Outcome State Fault Refusal := .next (s.begin.respond (.byte (readReg s.noise 1)))

/-- NRD 2 (R196). -/
def execNrd2 (s : State) : Host.Outcome State Fault Refusal := .next (s.begin.respond (.byte (readReg s.noise 2)))

/-- NRD 3 (R197). -/
def execNrd3 (s : State) : Host.Outcome State Fault Refusal := .next (s.begin.respond (.byte (readReg s.noise 3)))


end Sys2Proof.Machine
end

