-- ==== Sys2Proof/Machine/System.lean ====
section
/-! DEFINITION. The AddressSpace system operations REQINT, RESET, TICK and LOADCART (R170 to R173). -/

namespace Sys2Proof.Machine

/-- REQINT (R170): sets `IF[bit]` for `bit` in 0..4; any other `bit` changes nothing (D19). -/
def execReqint (bit : Nat) (s : State) : Host.Outcome State Fault Refusal :=
  .next (if bit ≤ 4 then s.begin.setIflag (s.space.iflag ||| BitVec.twoPow 5 bit) else s.begin)

/-- RESET (R171): AddressSpace as at power-on, then one `reset()` on TIMER, JOYPAD, SERIAL and DMA in this order (D29). No
`saveRam()` (D27); NoiseChannel, VIDEO and AUDIO are left alone (R52, R262). -/
def execReset (s : State) : Host.Outcome State Fault Refusal :=
  let wiped : State := { s.begin with space := AddressSpace.reset }
  .next (portReset .dma (portReset .serial (portReset .joypad (portReset .timer wiped))))

/-- TICK (R172, D24): no effect. -/
def execTick (s : State) : Host.Outcome State Fault Refusal := .next s.begin

/-- The old mapper's battery-backed RAM is flushed, if there is an old mapper (R173). -/
def flushOldMapper (s : State) : State :=
  match s.space.mapper with
  | none => s
  | some m => saveRam m s

/-- The mapper becomes `M(cart)`, constructed from the persistent storage as it is now (R173; log 4). -/
def attach (cart : BitVec 16) (s : State) : State :=
  s.setMapper (some ⟨cart, Config.mapperInit cart s.ports.storage⟩)

/-- LOADCART (R173, D25): defined for a selector that yields a mapper, refused for the others (log 6). -/
def execLoadcart (cart : BitVec 16) (s : State) : Host.Outcome State Fault Refusal :=
  if s.rejectedCarts.contains cart then .refused (.cartRejected cart)
  else .next (attach cart (flushOldMapper s.begin))


end Sys2Proof.Machine
end

