-- ==== Sys2Proof/Machine/Dispatch.lean ====
section
/-! DEFINITION. One arm per operation. -/

namespace Sys2Proof.Machine

def exec (i : Instr) (s : State) : Host.Outcome State Fault Refusal :=
  match i with
  | .rdRom a => Sys2Proof.Machine.execRdRom a s
  | .rdVram a => Sys2Proof.Machine.execRdVram a s
  | .rdExtram a => Sys2Proof.Machine.execRdExtram a s
  | .rdWram0 a => Sys2Proof.Machine.execRdWram0 a s
  | .rdWram1 a => Sys2Proof.Machine.execRdWram1 a s
  | .rdEcho a => Sys2Proof.Machine.execRdEcho a s
  | .rdOam a => Sys2Proof.Machine.execRdOam a s
  | .rdUnusable a => Sys2Proof.Machine.execRdUnusable a s
  | .rdLowio a => Sys2Proof.Machine.execRdLowio a s
  | .rdIf a => Sys2Proof.Machine.execRdIf a s
  | .rdSound a => Sys2Proof.Machine.execRdSound a s
  | .rdVideo a => Sys2Proof.Machine.execRdVideo a s
  | .rdKey1 a => Sys2Proof.Machine.execRdKey1 a s
  | .rdIounmapped a => Sys2Proof.Machine.execRdIounmapped a s
  | .rdHram a => Sys2Proof.Machine.execRdHram a s
  | .rdIe a => Sys2Proof.Machine.execRdIe a s
  | .wrRom a v => Sys2Proof.Machine.execWrRom a v s
  | .wrVram a v => Sys2Proof.Machine.execWrVram a v s
  | .wrExtram a v => Sys2Proof.Machine.execWrExtram a v s
  | .wrWram0 a v => Sys2Proof.Machine.execWrWram0 a v s
  | .wrWram1 a v => Sys2Proof.Machine.execWrWram1 a v s
  | .wrEcho a v => Sys2Proof.Machine.execWrEcho a v s
  | .wrOam a v => Sys2Proof.Machine.execWrOam a v s
  | .wrUnusable a v => Sys2Proof.Machine.execWrUnusable a v s
  | .wrLowio a v => Sys2Proof.Machine.execWrLowio a v s
  | .wrIf a v => Sys2Proof.Machine.execWrIf a v s
  | .wrSound a v => Sys2Proof.Machine.execWrSound a v s
  | .wrVideo a v => Sys2Proof.Machine.execWrVideo a v s
  | .wrDma a v => Sys2Proof.Machine.execWrDma a v s
  | .wrKey1 a v => Sys2Proof.Machine.execWrKey1 a v s
  | .wrIounmapped a v => Sys2Proof.Machine.execWrIounmapped a v s
  | .wrHram a v => Sys2Proof.Machine.execWrHram a v s
  | .wrIe a v => Sys2Proof.Machine.execWrIe a v s
  | .peekRom a => Sys2Proof.Machine.execPeekRom a s
  | .peekVram a => Sys2Proof.Machine.execPeekVram a s
  | .peekExtram a => Sys2Proof.Machine.execPeekExtram a s
  | .peekWram0 a => Sys2Proof.Machine.execPeekWram0 a s
  | .peekWram1 a => Sys2Proof.Machine.execPeekWram1 a s
  | .peekEcho a => Sys2Proof.Machine.execPeekEcho a s
  | .peekOam a => Sys2Proof.Machine.execPeekOam a s
  | .peekUnusable a => Sys2Proof.Machine.execPeekUnusable a s
  | .peekLowio a => Sys2Proof.Machine.execPeekLowio a s
  | .peekIf a => Sys2Proof.Machine.execPeekIf a s
  | .peekSound a => Sys2Proof.Machine.execPeekSound a s
  | .peekVideo a => Sys2Proof.Machine.execPeekVideo a s
  | .peekKey1 a => Sys2Proof.Machine.execPeekKey1 a s
  | .peekIounmapped a => Sys2Proof.Machine.execPeekIounmapped a s
  | .peekHram a => Sys2Proof.Machine.execPeekHram a s
  | .peekIe a => Sys2Proof.Machine.execPeekIe a s
  | .rd16 a => Sys2Proof.Machine.execRd16 a s
  | .wr16 a v => Sys2Proof.Machine.execWr16 a v s
  | .reqint bit => Sys2Proof.Machine.execReqint bit s
  | .reset => Sys2Proof.Machine.execReset s
  | .tick => Sys2Proof.Machine.execTick s
  | .loadcart cart => Sys2Proof.Machine.execLoadcart cart s
  | .nwr0 v => Sys2Proof.Machine.execNwr0 v s
  | .nwr1 v => Sys2Proof.Machine.execNwr1 v s
  | .nwr2 v => Sys2Proof.Machine.execNwr2 v s
  | .nwr3 v => Sys2Proof.Machine.execNwr3 v s
  | .nwr3Trig v => Sys2Proof.Machine.execNwr3Trig v s
  | .nrd0 => Sys2Proof.Machine.execNrd0 s
  | .nrd1 => Sys2Proof.Machine.execNrd1 s
  | .nrd2 => Sys2Proof.Machine.execNrd2 s
  | .nrd3 => Sys2Proof.Machine.execNrd3 s
  | .nadv cycles => Sys2Proof.Machine.execNadv cycles s
  | .nclklen => Sys2Proof.Machine.execNclklen s
  | .nclkenv => Sys2Proof.Machine.execNclkenv s
  | .nenabled => Sys2Proof.Machine.execNenabled s
  | .nsample => Sys2Proof.Machine.execNsample s
  | .fs step => Sys2Proof.Machine.execFs step s

end Sys2Proof.Machine
end

