-- ==== Sys2Proof/Machine/Step.lean ====
section
/-! DEFINITION. One step: the oldest command word issued is taken, decoded and run to completion (R3, R8, D33). -/

namespace Sys2Proof.Machine

/-- One operation. With nothing issued the block holds its state (R247; log 1). -/
def step (s : State) : Host.Outcome State Fault Refusal :=
  match fetch s with
  | none => idle s
  | some ws =>
    match decode ws.2.params ws.1 with
    | .ok i => exec i ws.2
    | .error e => rejected e

/-- `s` with the opcode-table word `w` of `nbits` bits issued so that the next step takes it (log 1). -/
def State.withFetchWord (s : State) (nbits w : Nat) : State := issue (tableWord nbits w) s

end Sys2Proof.Machine
end

