-- ==== Sys2Proof/Safety.lean ====
section
/-! DEFINITION. What counts as a safe run, in the terms the statements use: when a step faults (the cause table, R232), what a
write may change, and the invariants of the two components. -/

namespace Sys2Proof.Machine

/-! ## Faults -/

/-- A mapper window: [0x0000, 0x8000) or [0xA000, 0xC000) (R62, R64). -/
def inMapperWindow (a : Addr) : Bool :=
  decide (a.toNat < 0x8000) || (decide (0xA000 ≤ a.toNat) && decide (a.toNat < 0xC000))

/-- Can a bus access at `a` reach its destination: always outside the mapper windows, and inside them while a mapper is
attached (R235). -/
def backed (s : State) (a : Addr) : Bool := s.space.mapper.isSome || !inMapperWindow a

/-- The fault the cause table gives a command word (R232, R238): the first half of a 16-bit access before the second. -/
def causeOf (s : State) (w : CommandWord) : Option Fault :=
  let op := (opField w).toNat
  let a := aField w
  if op = 0x00 ∨ op = 0x01 ∨ op = 0x02 then
    if backed s a then none else some (.missingBackend a)
  else if op = 0x03 ∨ op = 0x04 then
    if !backed s a then some (.missingBackend a)
    else if !backed s (a + 1) then some (.missingBackend (a + 1))
    else none
  else if op = 0x10 ∨ op = 0x11 then
    if 4 ≤ a.toNat then some (.invalidRegisterIndex a) else none
  else none

/-- The command words the model gives no meaning: a reserved `op` (R96), and LOADCART of a rejected selector (R173, D25). -/
def refusalOf (s : State) (w : CommandWord) : Option Refusal :=
  let op := (opField w).toNat
  if (0x09 ≤ op ∧ op ≤ 0x0F) ∨ 0x18 ≤ op then some (.reservedOp (opField w))
  else if op = 0x08 ∧ s.rejectedCarts.contains (aField w) then some (.cartRejected (aField w))
  else none

/-! ## Storage bytes -/

/-- The storage byte of a bus address in VRAM, WRAM0, WRAM1, ECHO, OAM or HRAM (R61, R66); none elsewhere. -/
def storageOf (a : Addr) : Option Location :=
  let n := a.toNat
  if n < 0x8000 then none
  else if n < 0xA000 then some ⟨.vram, n - 0x8000⟩
  else if n < 0xC000 then none
  else if n < 0xD000 then some ⟨.wram0, n - 0xC000⟩
  else if n < 0xE000 then some ⟨.wram1, n - 0xD000⟩
  else if n < 0xF000 then some ⟨.wram0, n - 0xE000⟩
  else if n < 0xFE00 then some ⟨.wram1, n - 0xF000⟩
  else if n < 0xFEA0 then some ⟨.oam, n - 0xFE00⟩
  else if n < 0xFF80 then none
  else if n < 0xFFFF then some ⟨.hram, n - 0xFF80⟩
  else none

/-- RAM-backed in the sense of R164 (b): a storage byte, or the interrupt-enable register. -/
def ramBacked (a : Addr) : Bool := (storageOf a).isSome || a == 0xFFFF

/-- Outside NoiseChannel, the byte arrays, the response and what `t` is allowed to have changed, `s` and `t` agree: the
registers, the mapper, the collaborators, the inputs and the parameters. -/
def SameOutsideArrays (s t : State) : Prop :=
  t.space.ie = s.space.ie ∧ t.space.iflag = s.space.iflag ∧ t.space.key1 = s.space.key1 ∧
    t.space.mapper = s.space.mapper ∧ t.noise = s.noise ∧ t.ports = s.ports ∧ t.fsStep = s.fsStep ∧
    t.params = s.params ∧ t.rejectedCarts = s.rejectedCarts ∧ t.pending = s.pending

/-- `t` is `s` with the one storage byte `l` written to `v`, and an empty response. -/
def StoresOnly (s t : State) (l : Location) (v : Byte) : Prop :=
  t.byteAt l = v ∧ (∀ k, k ≠ l → t.byteAt k = s.byteAt k) ∧ SameOutsideArrays s t ∧ t.out = Output.empty

/-! ## Invariants -/

/-- The bounds of R46, R47, R214 and R218 and the stored trigger bit of R44. -/
structure NoiseInv (p : Params) (n : NoiseChannel) : Prop where
  vol_le : n.vol ≤ 15
  len_le : n.len ≤ 64
  envctr_nonneg : 0 ≤ n.envctr
  envctr_le : n.envctr ≤ 9
  div_nonneg : 0 ≤ n.div
  div_le : n.div ≤ 3670016
  en_len : n.en = true → n.len ≠ 0
  en_dac : n.en = true → n.nr1 &&& 0xF8 ≠ 0
  trig_clear : n.nr3.getLsbD p.trigBit = false

/-- The canonical form of the arrays, and the unreachable byte of high RAM at its reset value (R25). -/
def MemoryInv (s : State) : Prop := s.memWf = true ∧ s.byteAt ⟨.hram, 0x7F⟩ = 0

/-- The invariant of the machine: that of its arrays and that of NoiseChannel. -/
def Inv (s : State) : Prop := MemoryInv s ∧ NoiseInv s.params s.noise

end Sys2Proof.Machine
end

