-- ==== Sys2Proof/Certificates/Slice0/Obligations.lean ====
section
/-! DEFINITION. The statements for the provers. In all of them the response of an operation is the state's `out` (log 2), the
parameters are those of the state (log 5), and `encode`, `readInstr`, `writeInstr`, `peekInstr` name the operation of a row. -/

open Sys2Proof Sys2Proof.Machine

/-! ## Encoding and the step -/

/-- R90 to R94: no field of any operation is dropped between its word and its decoding, for any parameters. -/
def Obligations.DecodeOfEncodeIsTheOperation : Prop :=
  ∀ (p : Params) (i : Instr), i.wellFormed p = true → decode p (encode i) = .ok i

/-- R94, R100: whatever a word decodes to lies in its row: the address in the row's region, the trigger bit as the row says,
the operands within their fields. -/
def Obligations.DecodedOperationsAreWellFormed : Prop :=
  ∀ (p : Params) (w : CommandWord) (i : Instr), decode p w = .ok i → i.wellFormed p = true

/-- R90, R91: a field that an operation's format does not use is ignored. Formats S; then B for reads, H for RD16, Q, L and I
for reads; then B and I for writes; then F. -/
def Obligations.UnusedFieldsAreIgnored : Prop :=
  ∀ (p : Params) (w w' : CommandWord), opField w = opField w' →
    ((opField w).toNat ∈ [0x06, 0x07, 0x13, 0x14, 0x15, 0x16] → decode p w = decode p w') ∧
    ((opField w).toNat ∈ [0x00, 0x02, 0x03, 0x05, 0x08, 0x11] → aField w = aField w' → decode p w = decode p w') ∧
    ((opField w).toNat ∈ [0x01, 0x10] → aField w = aField w' → dataField w = dataField w' → decode p w = decode p w') ∧
    ((opField w).toNat = 0x17 → stepField w = stepField w' → decode p w = decode p w')

/-- Words of the spec's programs (95_test_vectors.md section 3) and of its fault table. A sanity statement. -/
def Obligations.WordsOfTheSpecDecode : Prop :=
  decode Params.default 0x01C12300AB = .ok (.wrWram0 0xC123 0xAB) ∧
  decode Params.default 0x00E1230000 = .ok (.rdEcho 0xE123) ∧
  decode Params.default 0x02FF040000 = .ok (.peekLowio 0xFF04) ∧
  decode Params.default 0x01FF4600C1 = .ok (.wrDma 0xFF46 0xC1) ∧
  decode Params.default 0x04FFFEBEEF = .ok (.wr16 0xFFFE 0xBEEF) ∧
  decode Params.default 0x0500020000 = .ok (.reqint 2) ∧
  decode Params.default 0x0612345678 = .ok .reset ∧
  decode Params.default 0x10000300C0 = .ok (.nwr3Trig 0xC0) ∧
  decode Params.default 0x1200000070 = .ok (.nadv 112) ∧
  decode Params.default 0x1700000001 = .ok (.fs 1) ∧
  decode Params.default 0x1100040000 = .error (.invalidIndex 4)

/-- R31, R121: every address has exactly one read destination and exactly one write destination, whatever the parameters. -/
def Obligations.EveryAddressHasExactlyOneDestination : Prop :=
  ∀ (p : Params) (a : Addr),
    (∃ r, (readInstr r a).wellFormed p = true ∧ ∀ r', (readInstr r' a).wellFormed p = true → r' = r) ∧
    (∀ v, ∃ d, (writeInstr d a v).wellFormed p = true ∧ ∀ d', (writeInstr d' a v).wellFormed p = true → d' = d)

/-- R71: with the default parameters (log 5) these are the unmapped addresses, for reads and for writes. -/
def Obligations.DefaultUnmappedAddresses : Prop :=
  ∀ a : Addr,
    (decodeRead Params.default a = .ioUnmapped ↔
      a = 0xFF03 ∨ (0xFF08 ≤ a.toNat ∧ a.toNat < 0xFF0F) ∨ a = 0xFF4C ∨ (0xFF4E ≤ a.toNat ∧ a.toNat < 0xFF80)) ∧
    (decodeWrite Params.default a = .region .ioUnmapped ↔
      a = 0xFF03 ∨ (0xFF08 ≤ a.toNat ∧ a.toNat < 0xFF0F) ∨ a = 0xFF4C ∨ (0xFF4E ≤ a.toNat ∧ a.toNat < 0xFF80))

/-- R8, D33: a step takes the oldest command word and runs the operation it decodes to (log 1). -/
def Obligations.StepRunsTheDecodedOperation : Prop :=
  ∀ (s : State) (w : CommandWord) (rest : List CommandWord) (i : Instr),
    s.pending = w :: rest → decode s.params w = .ok i → step s = exec i { s with pending := rest }

/-- R247: with nothing issued the block holds its state (the model's choice of a step there is log 1). -/
def Obligations.NothingIssuedHoldsTheState : Prop :=
  ∀ s : State, s.pending = [] → step s = .next s

/-- R198, R234: an NWR or NRD command with an index of 4 or more is the fault InvalidRegisterIndex. -/
def Obligations.InvalidRegisterIndexFaults : Prop :=
  ∀ (s : State) (w : CommandWord) (rest : List CommandWord), s.pending = w :: rest →
    ((opField w).toNat = 0x10 ∨ (opField w).toNat = 0x11) → 4 ≤ (aField w).toNat →
    step s = .fault (.invalidRegisterIndex (aField w))

/-- R96 (its class of reserved `op`): 0x09 to 0x0F and 0x18 to 0xFF have no meaning and are refused by name. -/
def Obligations.ReservedOpcodesAreRefused : Prop :=
  ∀ (s : State) (w : CommandWord) (rest : List CommandWord), s.pending = w :: rest →
    ((0x09 ≤ (opField w).toNat ∧ (opField w).toNat ≤ 0x0F) ∨ 0x18 ≤ (opField w).toNat) →
    step s = .refused (.reservedOp (opField w))

/-! ## RD -/

/-- R123, R125 to R128, R136: a read of an array returns the stored byte, with no diagnostic, and changes nothing else. -/
def Obligations.ReadsOfArraysReturnTheStoredByte : Prop :=
  ∀ (s : State) (a : Addr),
    (0x8000 ≤ a.toNat → a.toNat < 0xA000 →
      exec (.rdVram a) s = .next { s with out := ⟨.byte (s.byteAt ⟨.vram, a.toNat - 0x8000⟩), false, []⟩ }) ∧
    (0xC000 ≤ a.toNat → a.toNat < 0xD000 →
      exec (.rdWram0 a) s = .next { s with out := ⟨.byte (s.byteAt ⟨.wram0, a.toNat - 0xC000⟩), false, []⟩ }) ∧
    (0xD000 ≤ a.toNat → a.toNat < 0xE000 →
      exec (.rdWram1 a) s = .next { s with out := ⟨.byte (s.byteAt ⟨.wram1, a.toNat - 0xD000⟩), false, []⟩ }) ∧
    (0xE000 ≤ a.toNat → a.toNat < 0xF000 →
      exec (.rdEcho a) s = .next { s with out := ⟨.byte (s.byteAt ⟨.wram0, a.toNat - 0xE000⟩), false, []⟩ }) ∧
    (0xF000 ≤ a.toNat → a.toNat < 0xFE00 →
      exec (.rdEcho a) s = .next { s with out := ⟨.byte (s.byteAt ⟨.wram1, a.toNat - 0xF000⟩), false, []⟩ }) ∧
    (0xFE00 ≤ a.toNat → a.toNat < 0xFEA0 →
      exec (.rdOam a) s = .next { s with out := ⟨.byte (s.byteAt ⟨.oam, a.toNat - 0xFE00⟩), false, []⟩ }) ∧
    (0xFF80 ≤ a.toNat → a.toNat < 0xFFFF →
      exec (.rdHram a) s = .next { s with out := ⟨.byte (s.byteAt ⟨.hram, a.toNat - 0xFF80⟩), false, []⟩ })

/-- R129, R130, R131, R137: the unusable range reads 00, the interrupt-flag register reads `0xE0 | IF[4:0]`, the speed-mode
register reads 00, the interrupt-enable register reads as stored; no diagnostic, nothing else changes. -/
def Obligations.ReadsOfRegistersAndTheUnusableRange : Prop :=
  ∀ (s : State) (a : Addr),
    exec (.rdUnusable a) s = .next { s with out := ⟨.byte 0x00, false, []⟩ } ∧
    exec (.rdIf a) s = .next { s with out := ⟨.byte (0xE0 ||| s.space.iflag.setWidth 8), false, []⟩ } ∧
    exec (.rdKey1 a) s = .next { s with out := ⟨.byte 0x00, false, []⟩ } ∧
    exec (.rdIe a) s = .next { s with out := ⟨.byte s.space.ie, false, []⟩ }

/-- R135, R155: an unmapped read returns 00, an unmapped write is dropped; both raise the diagnostic and change nothing. -/
def Obligations.UnmappedAccessesAreDiagnosed : Prop :=
  ∀ (s : State) (a : Addr) (v : Byte),
    exec (.rdIounmapped a) s = .next { s with out := ⟨.byte 0x00, true, [.diag .read a]⟩ } ∧
    exec (.wrIounmapped a v) s = .next { s with out := ⟨.none, true, [.diag .write a]⟩ }

/-- Reads of the sound, video and low I/O ranges make one call on their collaborator with the unmodified address, return what
it answers, and change nothing else. What it answers and how it moves are the model's free functions (log 3). -/
def Obligations.ReadsOfCollaboratorsAreForwarded : Prop :=
  ∀ (s : State) (a : Addr),
    exec (.rdSound a) s = .next { s with
      ports := { s.ports with audio := Config.portAfter .audio (.read a) s.ports.audio }
      out := ⟨.byte (Config.portRead .audio s.ports.audio a), false, [.call .audio (.read a)]⟩ } ∧
    exec (.rdVideo a) s = .next { s with
      ports := { s.ports with video := Config.portAfter .video (.read a) s.ports.video }
      out := ⟨.byte (Config.portRead .video s.ports.video a), false, [.call .video (.read a)]⟩ } ∧
    (0xFF00 ≤ a.toNat → a.toNat < 0xFF08 →
      (s.params.lowIoMap.toList.getD (a.toNat - 0xFF00) none = some .joypad →
        exec (.rdLowio a) s = .next { s with
          ports := { s.ports with joypad := Config.portAfter .joypad (.read a) s.ports.joypad }
          out := ⟨.byte (Config.portRead .joypad s.ports.joypad a), false, [.call .joypad (.read a)]⟩ }) ∧
      (s.params.lowIoMap.toList.getD (a.toNat - 0xFF00) none = some .serial →
        exec (.rdLowio a) s = .next { s with
          ports := { s.ports with serial := Config.portAfter .serial (.read a) s.ports.serial }
          out := ⟨.byte (Config.portRead .serial s.ports.serial a), false, [.call .serial (.read a)]⟩ }) ∧
      (s.params.lowIoMap.toList.getD (a.toNat - 0xFF00) none = some .timer →
        exec (.rdLowio a) s = .next { s with
          ports := { s.ports with timer := Config.portAfter .timer (.read a) s.ports.timer }
          out := ⟨.byte (Config.portRead .timer s.ports.timer a), false, [.call .timer (.read a)]⟩ }))

/-- With a mapper attached, RD, WR and PEEK in a mapper window make one call on it with the unmodified address and change
nothing but its hidden state; PEEK not even that. What it answers and how it moves are free (log 3). -/
def Obligations.MapperAccessesAreForwarded : Prop :=
  ∀ (s : State) (m : MapperRef) (a : Addr) (v : Byte), s.space.mapper = some m →
    let moved (c : PortCall) : Option MapperRef := some ⟨m.cart, Config.portAfter (.mapper m.cart) c m.hidden⟩
    let answer : Byte := Config.portRead (.mapper m.cart) m.hidden a
    let afterRead : State := { s with
      space := { s.space with mapper := moved (.read a) }
      out := ⟨.byte answer, false, [.call (.mapper m.cart) (.read a)]⟩ }
    let afterWrite : State := { s with
      space := { s.space with mapper := moved (.write a v) }
      out := ⟨.none, false, [.call (.mapper m.cart) (.write a v)]⟩ }
    let afterPeek : State := { s with out := ⟨.byte answer, false, [.call (.mapper m.cart) (.peek a)]⟩ }
    exec (.rdRom a) s = .next afterRead ∧ exec (.rdExtram a) s = .next afterRead ∧
    exec (.wrRom a v) s = .next afterWrite ∧ exec (.wrExtram a v) s = .next afterWrite ∧
    exec (.peekRom a) s = .next afterPeek ∧ exec (.peekExtram a) s = .next afterPeek

/-- R235: RD, WR and PEEK in a mapper window while no mapper is attached raise MissingBackend; 16-bit accesses raise it for
the first of their two bytes that falls there. -/
def Obligations.MapperWindowWithoutMapperFaults : Prop :=
  ∀ (s : State) (a : Addr) (v : Byte) (x : Half), s.space.mapper = none →
    exec (.rdRom a) s = .fault (.missingBackend a) ∧ exec (.rdExtram a) s = .fault (.missingBackend a) ∧
    exec (.wrRom a v) s = .fault (.missingBackend a) ∧ exec (.wrExtram a v) s = .fault (.missingBackend a) ∧
    exec (.peekRom a) s = .fault (.missingBackend a) ∧ exec (.peekExtram a) s = .fault (.missingBackend a) ∧
    (inMapperWindow a = true →
      exec (.rd16 a) s = .fault (.missingBackend a) ∧ exec (.wr16 a x) s = .fault (.missingBackend a)) ∧
    (inMapperWindow a = false → inMapperWindow (a + 1) = true →
      exec (.rd16 a) s = .fault (.missingBackend (a + 1)) ∧ exec (.wr16 a x) s = .fault (.missingBackend (a + 1)))

/-! ## WR -/

/-- R142, R144 to R147, R156: a write to an array stores the byte at the index the address names; every other byte of every
array, every register and everything else stays, and there is no diagnostic. -/
def Obligations.WritesToArraysStoreOneByte : Prop :=
  ∀ (s : State) (a : Addr) (v : Byte),
    (0x8000 ≤ a.toNat → a.toNat < 0xA000 →
      ∃ t, exec (.wrVram a v) s = .next t ∧ StoresOnly s t ⟨.vram, a.toNat - 0x8000⟩ v) ∧
    (0xC000 ≤ a.toNat → a.toNat < 0xD000 →
      ∃ t, exec (.wrWram0 a v) s = .next t ∧ StoresOnly s t ⟨.wram0, a.toNat - 0xC000⟩ v) ∧
    (0xD000 ≤ a.toNat → a.toNat < 0xE000 →
      ∃ t, exec (.wrWram1 a v) s = .next t ∧ StoresOnly s t ⟨.wram1, a.toNat - 0xD000⟩ v) ∧
    (0xE000 ≤ a.toNat → a.toNat < 0xF000 →
      ∃ t, exec (.wrEcho a v) s = .next t ∧ StoresOnly s t ⟨.wram0, a.toNat - 0xE000⟩ v) ∧
    (0xF000 ≤ a.toNat → a.toNat < 0xFE00 →
      ∃ t, exec (.wrEcho a v) s = .next t ∧ StoresOnly s t ⟨.wram1, a.toNat - 0xF000⟩ v) ∧
    (0xFE00 ≤ a.toNat → a.toNat < 0xFEA0 →
      ∃ t, exec (.wrOam a v) s = .next t ∧ StoresOnly s t ⟨.oam, a.toNat - 0xFE00⟩ v) ∧
    (0xFF80 ≤ a.toNat → a.toNat < 0xFFFF →
      ∃ t, exec (.wrHram a v) s = .next t ∧ StoresOnly s t ⟨.hram, a.toNat - 0xFF80⟩ v)

/-- R149, R150, R157: WR.IF stores `v[4:0]`, WR.KEY1 stores `v[0]`, WR.IE stores all eight bits; nothing else changes. -/
def Obligations.WritesToRegistersStoreTheirBits : Prop :=
  ∀ (s : State) (a : Addr) (v : Byte),
    exec (.wrIf a v) s = .next { s with space := { s.space with iflag := v.setWidth 5 }, out := ⟨.none, false, []⟩ } ∧
    exec (.wrKey1 a v) s = .next { s with space := { s.space with key1 := v.setWidth 1 }, out := ⟨.none, false, []⟩ } ∧
    exec (.wrIe a v) s = .next { s with space := { s.space with ie := v }, out := ⟨.none, false, []⟩ }

/-- R148: a write into the unusable range leaves every state component unchanged and raises no diagnostic. -/
def Obligations.WritesToTheUnusableRangeAreDropped : Prop :=
  ∀ (s : State) (a : Addr) (v : Byte), exec (.wrUnusable a v) s = .next { s with out := ⟨.none, false, []⟩ }

/-- Writes to the DMA-trigger address and to the sound, video and low I/O ranges make one call on their collaborator with the
unmodified address and change nothing else. How it moves is the model's free function (log 3). -/
def Obligations.WritesToCollaboratorsAreForwarded : Prop :=
  ∀ (s : State) (a : Addr) (v : Byte),
    exec (.wrDma a v) s = .next { s with
      ports := { s.ports with dma := Config.portAfter .dma (.write a v) s.ports.dma }
      out := ⟨.none, false, [.call .dma (.write a v)]⟩ } ∧
    exec (.wrSound a v) s = .next { s with
      ports := { s.ports with audio := Config.portAfter .audio (.write a v) s.ports.audio }
      out := ⟨.none, false, [.call .audio (.write a v)]⟩ } ∧
    exec (.wrVideo a v) s = .next { s with
      ports := { s.ports with video := Config.portAfter .video (.write a v) s.ports.video }
      out := ⟨.none, false, [.call .video (.write a v)]⟩ } ∧
    (0xFF00 ≤ a.toNat → a.toNat < 0xFF08 →
      (s.params.lowIoMap.toList.getD (a.toNat - 0xFF00) none = some .joypad →
        exec (.wrLowio a v) s = .next { s with
          ports := { s.ports with joypad := Config.portAfter .joypad (.write a v) s.ports.joypad }
          out := ⟨.none, false, [.call .joypad (.write a v)]⟩ }) ∧
      (s.params.lowIoMap.toList.getD (a.toNat - 0xFF00) none = some .serial →
        exec (.wrLowio a v) s = .next { s with
          ports := { s.ports with serial := Config.portAfter .serial (.write a v) s.ports.serial }
          out := ⟨.none, false, [.call .serial (.write a v)]⟩ }) ∧
      (s.params.lowIoMap.toList.getD (a.toNat - 0xFF00) none = some .timer →
        exec (.wrLowio a v) s = .next { s with
          ports := { s.ports with timer := Config.portAfter .timer (.write a v) s.ports.timer }
          out := ⟨.none, false, [.call .timer (.write a v)]⟩ }))

/-- R151, R153 (with R70 and C8): a write at DMA_ADDR reaches DMA and not VIDEO, a read there is VIDEO's when the address lies
in the video range; stated where the two registers of the I/O block lie elsewhere. -/
def Obligations.DmaAddressIsDmaOnWritesOnly : Prop :=
  ∀ (p : Params), 0xFF40 ≤ p.dmaAddr.toNat → p.dmaAddr.toNat < 0xFF4C → p.dmaAddr ≠ p.ifAddr → p.dmaAddr ≠ p.key1Addr →
    decodeWrite p p.dmaAddr = .dma ∧ decodeRead p p.dmaAddr = .video ∧
    ∀ a : Addr, a ≠ p.dmaAddr → decodeWrite p a = .region (decodeRead p a)

/-- R66, and R164 (a), which the spec marks as derived: an access in the echo region is the access 0x2000 below, for reads,
writes and peeks, whatever the parameters. -/
def Obligations.EchoMirrorsWorkingRam : Prop :=
  ∀ (s : State) (a : Addr) (v : Byte), 0xE000 ≤ a.toNat → a.toNat < 0xFE00 →
    exec (readInstr (decodeRead s.params a) a) s =
      exec (readInstr (decodeRead s.params (a - 0x2000)) (a - 0x2000)) s ∧
    exec (writeInstr (decodeWrite s.params a) a v) s =
      exec (writeInstr (decodeWrite s.params (a - 0x2000)) (a - 0x2000) v) s ∧
    exec (peekInstr (decodeRead s.params a) a) s =
      exec (peekInstr (decodeRead s.params (a - 0x2000)) (a - 0x2000)) s

/-- R164 (b), which the spec marks as derived: at a RAM-backed address a WR and then a RD returns the byte written. -/
def Obligations.RamReadsBackWhatWasWritten : Prop :=
  ∀ (s : State) (a : Addr) (v : Byte), ramBacked a = true →
    ∃ t u, exec (writeInstr (decodeWrite s.params a) a v) s = .next t ∧
      exec (readInstr (decodeRead t.params a) a) t = .next u ∧ u.out = ⟨.byte v, false, []⟩

/-- R164 (c), which the spec marks as derived: the interrupt-flag register reads back `0xE0 | (v & 0x1F)`, wherever in the I/O block it lies. -/
def Obligations.InterruptFlagReadsBackMasked : Prop :=
  ∀ (s : State) (v : Byte), 0xFF00 ≤ s.params.ifAddr.toNat → s.params.ifAddr.toNat < 0xFF80 →
    ∃ t u, exec (writeInstr (decodeWrite s.params s.params.ifAddr) s.params.ifAddr v) s = .next t ∧
      exec (readInstr (decodeRead t.params t.params.ifAddr) t.params.ifAddr) t = .next u ∧
      u.out = ⟨.byte (0xE0 ||| (v &&& 0x1F)), false, []⟩

/-! ## PEEK -/

/-- R160: a PEEK of a destination AddressSpace owns answers as a RD does and changes no state but the response. -/
def Obligations.PeekOfOwnedDestinationsIsTheRead : Prop :=
  ∀ (s : State) (a : Addr),
    ∀ ir ∈ [(Instr.peekVram a, Instr.rdVram a), (.peekWram0 a, .rdWram0 a), (.peekWram1 a, .rdWram1 a),
        (.peekEcho a, .rdEcho a), (.peekOam a, .rdOam a), (.peekUnusable a, .rdUnusable a), (.peekIf a, .rdIf a),
        (.peekKey1 a, .rdKey1 a), (.peekIounmapped a, .rdIounmapped a), (.peekHram a, .rdHram a), (.peekIe a, .rdIe a)],
      exec ir.1 s = exec ir.2 s ∧ ∃ b d e, exec ir.1 s = .next { s with out := ⟨.byte b, d, e⟩ }

/-- A PEEK of the sound, video or low I/O range answers what a RD would and moves nothing; the collaborator's answer is the
model's free function (log 3). -/
def Obligations.PeekOfCollaboratorsMovesNothing : Prop :=
  ∀ (s : State) (a : Addr),
    exec (.peekSound a) s =
      .next { s with out := ⟨.byte (Config.portRead .audio s.ports.audio a), false, [.call .audio (.peek a)]⟩ } ∧
    exec (.peekVideo a) s =
      .next { s with out := ⟨.byte (Config.portRead .video s.ports.video a), false, [.call .video (.peek a)]⟩ } ∧
    (0xFF00 ≤ a.toNat → a.toNat < 0xFF08 →
      (s.params.lowIoMap.toList.getD (a.toNat - 0xFF00) none = some .joypad → exec (.peekLowio a) s =
        .next { s with out := ⟨.byte (Config.portRead .joypad s.ports.joypad a), false, [.call .joypad (.peek a)]⟩ }) ∧
      (s.params.lowIoMap.toList.getD (a.toNat - 0xFF00) none = some .serial → exec (.peekLowio a) s =
        .next { s with out := ⟨.byte (Config.portRead .serial s.ports.serial a), false, [.call .serial (.peek a)]⟩ }) ∧
      (s.params.lowIoMap.toList.getD (a.toNat - 0xFF00) none = some .timer → exec (.peekLowio a) s =
        .next { s with out := ⟨.byte (Config.portRead .timer s.ports.timer a), false, [.call .timer (.peek a)]⟩ }))

/-- R161: after a PEEK, anywhere, every operation does exactly what it would have done without the PEEK; and the byte a PEEK
returns is the byte a RD would have returned at that moment. -/
def Obligations.PeekLeavesNoTrace : Prop :=
  ∀ (r : Region) (a : Addr) (s t : State), exec (peekInstr r a) s = .next t →
    (∀ i : Instr, exec i t = exec i s) ∧
    ∃ u, exec (readInstr r a) s = .next u ∧ u.out.datum = t.out.datum ∧ u.out.diag = t.out.diag

/-! ## RD16 and WR16 -/

/-- R162: RD16 is the complete RD of its two addresses in order: it faults where one of them faults, and else joins the two
bytes, the diagnostics by OR and the events in order. -/
def Obligations.Rd16IsTwoReads : Prop :=
  ∀ (s : State) (a : Addr),
    let first := readInstr (decodeRead s.params a) a
    let second := readInstr (decodeRead s.params (a + 1)) (a + 1)
    (∀ f, exec first s = .fault f → exec (.rd16 a) s = .fault f) ∧
    (∀ s1 f, exec first s = .next s1 → exec second s1 = .fault f → exec (.rd16 a) s = .fault f) ∧
    (∀ s1 s2 lo hi, exec first s = .next s1 → s1.out.datum = .byte lo →
      exec second s1 = .next s2 → s2.out.datum = .byte hi →
      exec (.rd16 a) s = .next { s2 with
        out := ⟨.half (hi ++ lo), s1.out.diag || s2.out.diag, s1.out.events ++ s2.out.events⟩ })

/-- R163: WR16 is the complete WR of its two bytes in order, low byte first. -/
def Obligations.Wr16IsTwoWrites : Prop :=
  ∀ (s : State) (a : Addr) (v : Half),
    let first := writeInstr (decodeWrite s.params a) a (v.extractLsb' 0 8)
    let second := writeInstr (decodeWrite s.params (a + 1)) (a + 1) (v.extractLsb' 8 8)
    (∀ f, exec first s = .fault f → exec (.wr16 a v) s = .fault f) ∧
    (∀ s1 f, exec first s = .next s1 → exec second s1 = .fault f → exec (.wr16 a v) s = .fault f) ∧
    (∀ s1 s2, exec first s = .next s1 → exec second s1 = .next s2 →
      exec (.wr16 a v) s = .next { s2 with
        out := ⟨.none, s1.out.diag || s2.out.diag, s1.out.events ++ s2.out.events⟩ })

/-- Where neither byte falls in a mapper window without a mapper, RD16 completes with a 16-bit datum and leaves every array,
register, parameter and NoiseChannel as it was, and WR16 completes, writes its two bytes where they are RAM-backed storage,
and leaves every other byte of every array, each register that neither address decodes to, NoiseChannel, the inputs and the
parameters as they were. -/
def Obligations.HalfAccessesComplete : Prop :=
  ∀ (s : State) (a : Addr) (v : Half), backed s a = true → backed s (a + 1) = true →
    (∃ t x, exec (.rd16 a) s = .next t ∧ t.out.datum = .half x ∧ (∀ l, t.byteAt l = s.byteAt l) ∧
      t.space.ie = s.space.ie ∧ t.space.iflag = s.space.iflag ∧ t.space.key1 = s.space.key1 ∧
      t.space.mapper.isSome = s.space.mapper.isSome ∧ t.noise = s.noise ∧ t.fsStep = s.fsStep ∧ t.params = s.params ∧
      t.rejectedCarts = s.rejectedCarts ∧ t.pending = s.pending) ∧
    (∃ t, exec (.wr16 a v) s = .next t ∧ t.out.datum = .none ∧
      (∀ l, storageOf a = some l → t.byteAt l = v.extractLsb' 0 8) ∧
      (∀ l, storageOf (a + 1) = some l → t.byteAt l = v.extractLsb' 8 8) ∧
      (∀ l, storageOf a ≠ some l → storageOf (a + 1) ≠ some l → t.byteAt l = s.byteAt l) ∧
      (a ≠ 0xFFFF → a + 1 ≠ 0xFFFF → t.space.ie = s.space.ie) ∧
      (decodeWrite s.params a ≠ .region .ifReg → decodeWrite s.params (a + 1) ≠ .region .ifReg →
        t.space.iflag = s.space.iflag) ∧
      (decodeWrite s.params a ≠ .region .key1 → decodeWrite s.params (a + 1) ≠ .region .key1 →
        t.space.key1 = s.space.key1) ∧
      t.space.mapper.isSome = s.space.mapper.isSome ∧ t.noise = s.noise ∧ t.fsStep = s.fsStep ∧ t.params = s.params ∧
      t.rejectedCarts = s.rejectedCarts ∧ t.pending = s.pending)

/-- R164 (e), which the spec marks as derived: at two RAM-backed addresses WR16 and then RD16 returns the value written, straddling regions included. -/
def Obligations.HalfRoundTrip : Prop :=
  ∀ (s : State) (a : Addr) (v : Half), ramBacked a = true → ramBacked (a + 1) = true →
    ∃ t u, exec (.wr16 a v) s = .next t ∧ exec (.rd16 a) t = .next u ∧ u.out = ⟨.half v, false, []⟩

/-! ## REQINT, RESET, TICK, LOADCART -/

/-- R170: REQINT sets `IF[bit]` for `bit` in 0..4 and changes nothing for any other `bit`; no other bit and nothing else
changes, whatever `IE` holds. -/
def Obligations.RequestInterruptSetsOneBit : Prop :=
  ∀ (s : State) (bit : Nat), ∃ f : BitVec 5,
    exec (.reqint bit) s = .next { s with space := { s.space with iflag := f }, out := ⟨.none, false, []⟩ } ∧
    ∀ k, k < 5 → f.getLsbD k = (s.space.iflag.getLsbD k || decide (k = bit))

/-- R171: RESET zeroes every array and register, detaches the mapper, and resets TIMER, JOYPAD, SERIAL and DMA, each once and
no other collaborator; NoiseChannel, VIDEO, AUDIO, persistent storage, the inputs and the parameters stay. -/
def Obligations.ResetWipesAddressSpace : Prop :=
  ∀ s : State, ∃ t, exec .reset s = .next t ∧
    (∀ l, t.byteAt l = 0x00) ∧ t.space.ie = 0x00 ∧ t.space.iflag = 0 ∧ t.space.key1 = 0 ∧ t.space.mapper = none ∧
    t.out = ⟨.none, false, [.call .timer .reset, .call .joypad .reset, .call .serial .reset, .call .dma .reset]⟩ ∧
    t.noise = s.noise ∧ t.ports.video = s.ports.video ∧ t.ports.audio = s.ports.audio ∧
    t.ports.storage = s.ports.storage ∧ t.fsStep = s.fsStep ∧ t.params = s.params ∧
    t.rejectedCarts = s.rejectedCarts ∧ t.pending = s.pending

/-- R172: TICK has no effect on AddressSpace and makes no collaborator call: every later operation does what it would have
done without it. -/
def Obligations.TickChangesNothing : Prop :=
  ∀ s : State, ∃ t, exec .tick s = .next t ∧ t = { s with out := ⟨.none, false, []⟩ } ∧ ∀ i : Instr, exec i t = exec i s

/-- LOADCART of a selector that yields a mapper: `saveRam()` on the old mapper first, if there is one, then the new mapper;
no array and no register changes. The hidden states are the model's free functions (log 3, 4), the accepted selectors its
choice (log 6). -/
def Obligations.LoadcartAttachesTheMapper : Prop :=
  ∀ (s : State) (cart : BitVec 16), cart ∉ s.rejectedCarts →
    (s.space.mapper = none → exec (.loadcart cart) s = .next { s with
      space := { s.space with mapper := some ⟨cart, Config.mapperInit cart s.ports.storage⟩ }
      out := ⟨.none, false, []⟩ }) ∧
    (∀ m, s.space.mapper = some m →
      let saved := Config.storageAfter m.cart m.hidden s.ports.storage
      exec (.loadcart cart) s = .next { s with
        space := { s.space with mapper := some ⟨cart, Config.mapperInit cart saved⟩ }
        ports := { s.ports with storage := saved }
        out := ⟨.none, false, [.call (.mapper m.cart) .saveRam]⟩ })

/-- LOADCART of a selector for which the external parser yields no mapper is refused by name (the model's choice, log 6,
after D25). -/
def Obligations.LoadcartOfARejectedSelectorIsRefused : Prop :=
  ∀ (s : State) (cart : BitVec 16), cart ∈ s.rejectedCarts → exec (.loadcart cart) s = .refused (.cartRejected cart)

/-! ## NoiseChannel registers -/

/-- R181 to R184. NWR 0 stores the raw value, and loads the length counter with `64 - v[5:0]` if and only if
LEN_LOAD_ON_REG0 is true, a formula the spec takes from general knowledge (D13, log 5). NWR 1 stores and clears the enabled flag where `v & 0xF8` is 0; NWR 2 and NWR 3 without trigger store; nothing else
changes. -/
def Obligations.NoiseRegisterWritesStore : Prop :=
  ∀ (s : State) (v : Byte),
    (s.params.lenLoadOnReg0 = false →
      exec (.nwr0 v) s = .next { s with noise := { s.noise with nr0 := v }, out := ⟨.none, false, []⟩ }) ∧
    (s.params.lenLoadOnReg0 = true → exec (.nwr0 v) s = .next { s with
      noise := { s.noise with nr0 := v, len := 64 - v.toNat % 64 }, out := ⟨.none, false, []⟩ }) ∧
    (v &&& 0xF8 = 0 → exec (.nwr1 v) s = .next { s with
      noise := { s.noise with nr1 := v, en := false }, out := ⟨.none, false, []⟩ }) ∧
    (v &&& 0xF8 ≠ 0 →
      exec (.nwr1 v) s = .next { s with noise := { s.noise with nr1 := v }, out := ⟨.none, false, []⟩ }) ∧
    exec (.nwr2 v) s = .next { s with noise := { s.noise with nr2 := v }, out := ⟨.none, false, []⟩ } ∧
    exec (.nwr3 v) s = .next { s with noise := { s.noise with nr3 := v }, out := ⟨.none, false, []⟩ }

/-- R185 to R192: what NWR 3 with the trigger bit leaves in every register and counter of NoiseChannel, for every frame step
and every parameter, and that it changes nothing else. -/
def Obligations.TriggerSetsTheChannel : Prop :=
  ∀ (s : State) (v : Byte), ∃ n : NoiseChannel,
    exec (.nwr3Trig v) s = .next { s with noise := n, out := ⟨.none, false, []⟩ } ∧
    n.nr0 = s.noise.nr0 ∧ n.nr1 = s.noise.nr1 ∧ n.nr2 = s.noise.nr2 ∧
    (∀ k, k < 8 → n.nr3.getLsbD k = (v.getLsbD k && decide (k ≠ s.params.trigBit))) ∧
    (n.en = true ↔ s.noise.nr1 &&& 0xF8 ≠ 0) ∧
    (s.noise.len ≠ 0 → n.len = s.noise.len) ∧
    (s.noise.len = 0 → s.fsStep ∈ s.params.lengthSteps → n.len = 64) ∧
    (s.noise.len = 0 → s.fsStep ∉ s.params.lengthSteps → n.len = 63) ∧
    [8, 16, 32, 48, 64, 80, 96, 112][s.noise.nr2.toNat % 8]? = some n.div ∧
    (n.envctr = (if s.noise.nr1.toNat % 8 = 0 then 8 else (s.noise.nr1.toNat % 8 : Int)) + (if s.fsStep = 7 then 1 else 0)) ∧
    n.vol = s.noise.nr1.toNat / 16 ∧
    n.lfsr = 0x7FFF

/-- R193 to R197: NRD 0 returns FF, NRD 1 and NRD 2 the register, NRD 3 the register with every bit but bit 6 forced to 1,
so BF or FF; no state changes. -/
def Obligations.NoiseRegisterReadsAreMasked : Prop :=
  ∀ s : State,
    exec .nrd0 s = .next { s with out := ⟨.byte 0xFF, false, []⟩ } ∧
    exec .nrd1 s = .next { s with out := ⟨.byte s.noise.nr1, false, []⟩ } ∧
    exec .nrd2 s = .next { s with out := ⟨.byte s.noise.nr2, false, []⟩ } ∧
    exec .nrd3 s = .next { s with out := ⟨.byte (s.noise.nr3 ||| 0xBF), false, []⟩ } ∧
    exec .nrd3 s = .next { s with out := ⟨.byte (if s.noise.nr3.getLsbD 6 then 0xFF else 0xBF), false, []⟩ }

/-! ## NoiseChannel clocks and outputs -/

/-- R211: NADV by its closed form. With `P` the period of R212, the number of shifts is 0 if `div - cycles > 0` and else
`(cycles - div) / P + 1`; the divider and the LFSR are what so many turns leave; nothing else changes. R47's bound `1..P`
holds after at least one shift, and after none where the divider was at most `P` before; where an NWR 2, which leaves the
divider alone (R183), has made `P` smaller than it, the closed form itself leaves it above `P` (log 14). -/
def Obligations.AdvanceShiftsByTheClosedForm : Prop :=
  ∀ (s : State) (cycles : Nat),
    let p : Int := period s.noise
    let d : Int := s.noise.div - cycles
    let n : Nat := if 0 < d then 0 else ((-d) / p + 1).toNat
    ∃ t, exec (.nadv cycles) s = .next t ∧
      t = { s with
        noise := { s.noise with div := d + n * p, lfsr := (lfsrShift (s.noise.nr2.getLsbD 3))^[n] s.noise.lfsr }
        out := ⟨.none, false, []⟩ } ∧
      0 < t.noise.div ∧ (0 < n → t.noise.div ≤ p) ∧ (s.noise.div ≤ p → t.noise.div ≤ p) ∧
      (n = 0 → t.noise.div ≤ s.noise.div)

/-- Splitting an advance is exact, which the spec derives from the pseudocode of R211. -/
def Obligations.AdvanceSplitsExactly : Prop :=
  ∀ (s : State) (x y : Nat), ∃ t, exec (.nadv x) s = .next t ∧ exec (.nadv y) t = exec (.nadv (x + y)) s

/-- R212: the period is the base period of `nr[2][2:0]` times 2 to the power `nr[2][7:4]`, from 8 to 3670016. -/
def Obligations.PeriodIsTheShiftedBasePeriod : Prop :=
  ∀ n : NoiseChannel,
    [8, 16, 32, 48, 64, 80, 96, 112][n.nr2.toNat % 8]?.map (· * 2 ^ (n.nr2.toNat / 16)) = some (period n) ∧
    8 ≤ period n ∧ period n ≤ 3670016

/-- R213: bit 14 of the shifted LFSR is bit 0 xor bit 1, every other bit is its left neighbour, but for bit 6, which in width
mode is the feedback bit too. -/
def Obligations.LfsrShiftFeedsBack : Prop :=
  ∀ (wide : Bool) (l : Lfsr) (i : Nat), i < 15 →
    (lfsrShift wide l).getLsbD i =
      if i = 14 ∨ (wide = true ∧ i = 6) then l.getLsbD 0 ^^ l.getLsbD 1 else l.getLsbD (i + 1)

/-- R213: in long mode the shift is a bijection that fixes 0, hence one of the 32767 nonzero values. -/
def Obligations.LongShiftIsABijectionFixingZero : Prop :=
  Function.Bijective (lfsrShift false) ∧ lfsrShift false 0 = 0

/-- Which values shift to 0, read off the pseudocode of the shift: in long mode 0 alone, in short mode 0 and 0x0080. So a
channel that is switched to short mode while its LFSR holds 0x0080 falls silent for good, although the spec calls the
all-zero state reachable from power-on only (log 15). -/
def Obligations.ShortShiftLosesOneState : Prop :=
  (∀ l : Lfsr, lfsrShift false l = 0 ↔ l = 0) ∧ (∀ l : Lfsr, lfsrShift true l = 0 ↔ l = 0 ∨ l = 0x0080)

/-- R214: NCLKLEN with `lenen` (bit 6 of `nr[3]`) set and a nonzero counter decrements it and, when it becomes 0, clears the
enabled flag; else it changes nothing; it never sets the flag. -/
def Obligations.ClockLengthCountsDown : Prop :=
  ∀ s : State,
    (s.noise.nr3.getLsbD 6 = false ∨ s.noise.len = 0 → exec .nclklen s = .next { s with out := ⟨.none, false, []⟩ }) ∧
    (s.noise.nr3.getLsbD 6 = true → 1 < s.noise.len → exec .nclklen s = .next { s with
      noise := { s.noise with len := s.noise.len - 1 }, out := ⟨.none, false, []⟩ }) ∧
    (s.noise.nr3.getLsbD 6 = true → s.noise.len = 1 → exec .nclklen s = .next { s with
      noise := { s.noise with len := 0, en := false }, out := ⟨.none, false, []⟩ })

/-- R215: NCLKENV decrements the envelope counter; where it becomes 0 or less it is reloaded with the period or 8, and with a
nonzero period the volume steps by the direction unless that leaves 0..15; nothing else changes. -/
def Obligations.ClockEnvelopeStepsTheVolume : Prop :=
  ∀ s : State,
    let eper := s.noise.nr1.toNat % 8
    let up := s.noise.nr1.getLsbD 3
    (1 < s.noise.envctr → exec .nclkenv s = .next { s with
      noise := { s.noise with envctr := s.noise.envctr - 1 }, out := ⟨.none, false, []⟩ }) ∧
    (s.noise.envctr ≤ 1 → eper = 0 → exec .nclkenv s = .next { s with
      noise := { s.noise with envctr := 8 }, out := ⟨.none, false, []⟩ }) ∧
    (s.noise.envctr ≤ 1 → eper ≠ 0 → up = true → s.noise.vol < 15 → exec .nclkenv s = .next { s with
      noise := { s.noise with envctr := eper, vol := s.noise.vol + 1 }, out := ⟨.none, false, []⟩ }) ∧
    (s.noise.envctr ≤ 1 → eper ≠ 0 → up = false → 0 < s.noise.vol → s.noise.vol ≤ 16 →
      exec .nclkenv s = .next { s with
        noise := { s.noise with envctr := eper, vol := s.noise.vol - 1 }, out := ⟨.none, false, []⟩ }) ∧
    (s.noise.envctr ≤ 1 → eper ≠ 0 → (up = true ∧ 15 ≤ s.noise.vol) ∨ (up = false ∧ (s.noise.vol = 0 ∨ 16 < s.noise.vol)) →
      exec .nclkenv s = .next { s with noise := { s.noise with envctr := eper }, out := ⟨.none, false, []⟩ })

/-- R210, R216, R217: NENABLED returns the enabled flag; NSAMPLE returns 0 if the channel is disabled, and else the volume
where bit 0 of the LFSR is 0 and 0 where it is 1; FS sets the frame step; nothing else changes. -/
def Obligations.OutputsAndTheFrameStep : Prop :=
  ∀ (s : State) (k : BitVec 3),
    exec .nenabled s = .next { s with out := ⟨.flag s.noise.en, false, []⟩ } ∧
    (s.noise.en = false → exec .nsample s = .next { s with out := ⟨.sample 0, false, []⟩ }) ∧
    (s.noise.en = true → s.noise.lfsr.getLsbD 0 = false →
      exec .nsample s = .next { s with out := ⟨.sample s.noise.vol, false, []⟩ }) ∧
    (s.noise.en = true → s.noise.lfsr.getLsbD 0 = true →
      exec .nsample s = .next { s with out := ⟨.sample 0, false, []⟩ }) ∧
    exec (.fs k) s = .next { s with fsStep := k, out := ⟨.none, false, []⟩ }

/-! ## Reset, invariants and whole-machine rules -/

/-- R51: AddressSpace at power-on, which is also its state after RESET. -/
def Obligations.AddressSpaceAtPowerOnAndAfterReset : Prop :=
  ∀ t : State, (t = State.reset ∨ ∃ s, exec .reset s = .next t) →
    (∀ l, t.byteAt l = 0x00) ∧ t.space.ie = 0x00 ∧ t.space.iflag = 0 ∧ t.space.key1 = 0 ∧ t.space.mapper = none

/-- NoiseChannel at power-on: the all-zero state, which is the spec's own decision D12 (R52; log 8). -/
def Obligations.NoiseChannelAtPowerOn : Prop :=
  State.reset.noise.nr0 = 0x00 ∧ State.reset.noise.nr1 = 0x00 ∧ State.reset.noise.nr2 = 0x00 ∧
    State.reset.noise.nr3 = 0x00 ∧ State.reset.noise.en = false ∧ State.reset.noise.vol = 0 ∧
    State.reset.noise.envctr = 0 ∧ State.reset.noise.len = 0 ∧ State.reset.noise.div = 0 ∧ State.reset.noise.lfsr = 0x0000

/-- The power-on state meets the invariant of the machine. -/
def Obligations.PowerOnMeetsTheInvariant : Prop := Inv State.reset

/-- Every step keeps every array in canonical form, and keeps byte 0x7F of high RAM, which no operation reaches (R25), at its
reset value; no assumption on NoiseChannel. -/
def Obligations.StepKeepsMemoryCanonical : Prop :=
  ∀ s t : State, MemoryInv s → step s = .next t → MemoryInv t

/-- Bounds the spec derives in R218 and R47, with R44, R46 and R214: every step keeps the volume in 0..15, the length counter
in 0..64, the envelope counter in 0..9, the divider in 0..3670016, and the stored trigger bit 0; and an enabled channel has
its DAC on and a nonzero length counter. Every step that leaves `nr[2]`, and so the period `P`, as it was keeps the divider
at most `P`; an NWR 2 changes the period used from the next divider reload on (R269, log 14). For every value of the
parameters, and with no assumption on the arrays. -/
def Obligations.StepKeepsTheNoiseInvariant : Prop :=
  ∀ s t : State, step s = .next t →
    (NoiseInv s.params s.noise → NoiseInv t.params t.noise) ∧
    (t.noise.nr2 = s.noise.nr2 → s.noise.div ≤ period s.noise → t.noise.div ≤ period t.noise)

/-- R2: the two components share no state. An AddressSpace operation does the same whatever NoiseChannel and the frame step
hold, and leaves them; a NoiseChannel operation does the same whatever AddressSpace and the collaborators hold, and leaves
them. -/
def Obligations.ComponentsShareNoState : Prop :=
  (∀ (i : Instr) (s : State) (n : NoiseChannel) (k : BitVec 3), (opField (encode i)).toNat < 0x10 →
    (∀ t, exec i s = .next t → t.noise = s.noise ∧ t.fsStep = s.fsStep ∧
      exec i { s with noise := n, fsStep := k } = .next { t with noise := n, fsStep := k }) ∧
    (∀ f, exec i s = .fault f → exec i { s with noise := n, fsStep := k } = .fault f) ∧
    (∀ r, exec i s = .refused r → exec i { s with noise := n, fsStep := k } = .refused r)) ∧
  (∀ (i : Instr) (s : State) (sp : AddressSpace) (po : PortStates), 0x10 ≤ (opField (encode i)).toNat →
    ∃ t, exec i s = .next t ∧ t.space = s.space ∧ t.ports = s.ports ∧
      exec i { s with space := sp, ports := po } = .next { t with space := sp, ports := po })

/-- R232: a step faults exactly when its command word has one of the two fatal causes of the table, and with that cause. -/
def Obligations.StepFaultsExactlyByTheCauseTable : Prop :=
  ∀ (s : State) (f : Fault), step s = .fault f ↔ ∃ w rest, s.pending = w :: rest ∧ causeOf s w = some f

/-- A step is refused exactly for a reserved `op` and for LOADCART of a rejected selector (log 6); every command word with no
fatal cause and no such refusal completes. -/
def Obligations.EveryOtherCommandCompletes : Prop :=
  ∀ (s : State) (w : CommandWord) (rest : List CommandWord), s.pending = w :: rest →
    (∀ r, step s = .refused r ↔ refusalOf s w = some r) ∧
    (causeOf s w = none → refusalOf s w = none → ∃ t, step s = .next t)

/-- No operation changes a parameter or the parser's verdicts, each step takes the oldest command word and issues none, and
the frame step changes by FS alone (R14, R30, R49; the fields are the model's, log 1, 5, 6, 7). -/
def Obligations.ParametersAreFixed : Prop :=
  ∀ (i : Instr) (s t : State), exec i s = .next t →
    t.params = s.params ∧ t.rejectedCarts = s.rejectedCarts ∧ t.pending = s.pending ∧
    (t.fsStep = s.fsStep ∨ ∃ k, i = .fs k ∧ t.fsStep = k)

/-- R46: the enabled flag is set by a trigger alone, and only with the DAC on; it is cleared only by NWR 1 with the DAC off
afterwards, by a trigger with the DAC off, and by NCLKLEN when the counter reaches 0. -/
def Obligations.OnlyTheseChangeTheEnabledFlag : Prop :=
  ∀ (i : Instr) (s t : State), exec i s = .next t →
    (s.noise.en = false → t.noise.en = true → ∃ v, i = .nwr3Trig v ∧ s.noise.nr1 &&& 0xF8 ≠ 0) ∧
    (s.noise.en = true → t.noise.en = false →
      (∃ v, i = .nwr1 v ∧ v &&& 0xF8 = 0) ∨ (∃ v, i = .nwr3Trig v ∧ s.noise.nr1 &&& 0xF8 = 0) ∨
        (i = .nclklen ∧ s.noise.len = 1 ∧ t.noise.len = 0))

/-- R236: a pending interrupt bit is cleared only by a bus write of the interrupt-flag register or by RESET, and set only by
REQINT or such a write. -/
def Obligations.OnlyTheseChangeInterruptBits : Prop :=
  ∀ (i : Instr) (s t : State), exec i s = .next t → t.space.iflag ≠ s.space.iflag →
    (∃ a v, i = .wrIf a v) ∨
    (∃ a v, i = .wr16 a v ∧
      (decodeWrite s.params a = .region .ifReg ∨ decodeWrite s.params (a + 1) = .region .ifReg)) ∨
    i = .reset ∨ (∃ bit, i = .reqint bit ∧ ∀ k, s.space.iflag.getLsbD k = true → t.space.iflag.getLsbD k = true)

/-- R29: a mapper is attached by LOADCART alone and detached by RESET alone; what it is (its selector) changes by nothing
else. -/
def Obligations.OnlyTheseAttachOrDetachTheMapper : Prop :=
  ∀ (i : Instr) (s t : State), exec i s = .next t →
    t.space.mapper.map MapperRef.cart ≠ s.space.mapper.map MapperRef.cart →
    (∃ cart, i = .loadcart cart ∧ t.space.mapper.map MapperRef.cart = some cart) ∨
      (i = .reset ∧ t.space.mapper = none)
end

