-- ==== Sys2Proof/Laws/State.lean ====
section
/-! SUPPORT. The small lemmas of every update of the state: one per field per update, so that no later proof unfolds a record
update. -/

namespace Sys2Proof.Machine

/-! ## begin -/

@[simp] theorem State.begin_space (s : State) : s.begin.space = s.space := rfl
@[simp] theorem State.begin_noise (s : State) : s.begin.noise = s.noise := rfl
@[simp] theorem State.begin_ports (s : State) : s.begin.ports = s.ports := rfl
@[simp] theorem State.begin_fsStep (s : State) : s.begin.fsStep = s.fsStep := rfl
@[simp] theorem State.begin_params (s : State) : s.begin.params = s.params := rfl
@[simp] theorem State.begin_rejectedCarts (s : State) : s.begin.rejectedCarts = s.rejectedCarts := rfl
@[simp] theorem State.begin_pending (s : State) : s.begin.pending = s.pending := rfl
@[simp] theorem State.begin_out (s : State) : s.begin.out = Output.empty := rfl

/-! ## emit -/

@[simp] theorem State.emit_space (s : State) (e : Event) : (s.emit e).space = s.space := rfl
@[simp] theorem State.emit_noise (s : State) (e : Event) : (s.emit e).noise = s.noise := rfl
@[simp] theorem State.emit_ports (s : State) (e : Event) : (s.emit e).ports = s.ports := rfl
@[simp] theorem State.emit_fsStep (s : State) (e : Event) : (s.emit e).fsStep = s.fsStep := rfl
@[simp] theorem State.emit_params (s : State) (e : Event) : (s.emit e).params = s.params := rfl
@[simp] theorem State.emit_rejectedCarts (s : State) (e : Event) : (s.emit e).rejectedCarts = s.rejectedCarts := rfl
@[simp] theorem State.emit_pending (s : State) (e : Event) : (s.emit e).pending = s.pending := rfl
@[simp] theorem State.emit_out (s : State) (e : Event) : (s.emit e).out = { s.out with events := s.out.events ++ [e] } := rfl

/-! ## diagnose -/

@[simp] theorem State.diagnose_space (s : State) (k : AccessKind) (a : Addr) : (s.diagnose k a).space = s.space := rfl
@[simp] theorem State.diagnose_noise (s : State) (k : AccessKind) (a : Addr) : (s.diagnose k a).noise = s.noise := rfl
@[simp] theorem State.diagnose_ports (s : State) (k : AccessKind) (a : Addr) : (s.diagnose k a).ports = s.ports := rfl
@[simp] theorem State.diagnose_fsStep (s : State) (k : AccessKind) (a : Addr) : (s.diagnose k a).fsStep = s.fsStep := rfl
@[simp] theorem State.diagnose_params (s : State) (k : AccessKind) (a : Addr) : (s.diagnose k a).params = s.params := rfl
@[simp] theorem State.diagnose_rejectedCarts (s : State) (k : AccessKind) (a : Addr) : (s.diagnose k a).rejectedCarts = s.rejectedCarts := rfl
@[simp] theorem State.diagnose_pending (s : State) (k : AccessKind) (a : Addr) : (s.diagnose k a).pending = s.pending := rfl
@[simp] theorem State.diagnose_out (s : State) (k : AccessKind) (a : Addr) : (s.diagnose k a).out = { s.out with diag := true, events := s.out.events ++ [.diag k a] } := rfl

/-! ## respond -/

@[simp] theorem State.respond_space (s : State) (d : Datum) : (s.respond d).space = s.space := rfl
@[simp] theorem State.respond_noise (s : State) (d : Datum) : (s.respond d).noise = s.noise := rfl
@[simp] theorem State.respond_ports (s : State) (d : Datum) : (s.respond d).ports = s.ports := rfl
@[simp] theorem State.respond_fsStep (s : State) (d : Datum) : (s.respond d).fsStep = s.fsStep := rfl
@[simp] theorem State.respond_params (s : State) (d : Datum) : (s.respond d).params = s.params := rfl
@[simp] theorem State.respond_rejectedCarts (s : State) (d : Datum) : (s.respond d).rejectedCarts = s.rejectedCarts := rfl
@[simp] theorem State.respond_pending (s : State) (d : Datum) : (s.respond d).pending = s.pending := rfl
@[simp] theorem State.respond_out (s : State) (d : Datum) : (s.respond d).out = { s.out with datum := d } := rfl

/-! ## setIe -/

@[simp] theorem State.setIe_space (s : State) (v : Byte) : (s.setIe v).space = { s.space with ie := v } := rfl
@[simp] theorem State.setIe_noise (s : State) (v : Byte) : (s.setIe v).noise = s.noise := rfl
@[simp] theorem State.setIe_ports (s : State) (v : Byte) : (s.setIe v).ports = s.ports := rfl
@[simp] theorem State.setIe_fsStep (s : State) (v : Byte) : (s.setIe v).fsStep = s.fsStep := rfl
@[simp] theorem State.setIe_params (s : State) (v : Byte) : (s.setIe v).params = s.params := rfl
@[simp] theorem State.setIe_rejectedCarts (s : State) (v : Byte) : (s.setIe v).rejectedCarts = s.rejectedCarts := rfl
@[simp] theorem State.setIe_pending (s : State) (v : Byte) : (s.setIe v).pending = s.pending := rfl
@[simp] theorem State.setIe_out (s : State) (v : Byte) : (s.setIe v).out = s.out := rfl

/-! ## setIflag -/

@[simp] theorem State.setIflag_space (s : State) (f : BitVec 5) : (s.setIflag f).space = { s.space with iflag := f } := rfl
@[simp] theorem State.setIflag_noise (s : State) (f : BitVec 5) : (s.setIflag f).noise = s.noise := rfl
@[simp] theorem State.setIflag_ports (s : State) (f : BitVec 5) : (s.setIflag f).ports = s.ports := rfl
@[simp] theorem State.setIflag_fsStep (s : State) (f : BitVec 5) : (s.setIflag f).fsStep = s.fsStep := rfl
@[simp] theorem State.setIflag_params (s : State) (f : BitVec 5) : (s.setIflag f).params = s.params := rfl
@[simp] theorem State.setIflag_rejectedCarts (s : State) (f : BitVec 5) : (s.setIflag f).rejectedCarts = s.rejectedCarts := rfl
@[simp] theorem State.setIflag_pending (s : State) (f : BitVec 5) : (s.setIflag f).pending = s.pending := rfl
@[simp] theorem State.setIflag_out (s : State) (f : BitVec 5) : (s.setIflag f).out = s.out := rfl

/-! ## setKey1 -/

@[simp] theorem State.setKey1_space (s : State) (k : BitVec 1) : (s.setKey1 k).space = { s.space with key1 := k } := rfl
@[simp] theorem State.setKey1_noise (s : State) (k : BitVec 1) : (s.setKey1 k).noise = s.noise := rfl
@[simp] theorem State.setKey1_ports (s : State) (k : BitVec 1) : (s.setKey1 k).ports = s.ports := rfl
@[simp] theorem State.setKey1_fsStep (s : State) (k : BitVec 1) : (s.setKey1 k).fsStep = s.fsStep := rfl
@[simp] theorem State.setKey1_params (s : State) (k : BitVec 1) : (s.setKey1 k).params = s.params := rfl
@[simp] theorem State.setKey1_rejectedCarts (s : State) (k : BitVec 1) : (s.setKey1 k).rejectedCarts = s.rejectedCarts := rfl
@[simp] theorem State.setKey1_pending (s : State) (k : BitVec 1) : (s.setKey1 k).pending = s.pending := rfl
@[simp] theorem State.setKey1_out (s : State) (k : BitVec 1) : (s.setKey1 k).out = s.out := rfl

/-! ## setMapper -/

@[simp] theorem State.setMapper_space (s : State) (m : Option MapperRef) : (s.setMapper m).space = { s.space with mapper := m } := rfl
@[simp] theorem State.setMapper_noise (s : State) (m : Option MapperRef) : (s.setMapper m).noise = s.noise := rfl
@[simp] theorem State.setMapper_ports (s : State) (m : Option MapperRef) : (s.setMapper m).ports = s.ports := rfl
@[simp] theorem State.setMapper_fsStep (s : State) (m : Option MapperRef) : (s.setMapper m).fsStep = s.fsStep := rfl
@[simp] theorem State.setMapper_params (s : State) (m : Option MapperRef) : (s.setMapper m).params = s.params := rfl
@[simp] theorem State.setMapper_rejectedCarts (s : State) (m : Option MapperRef) : (s.setMapper m).rejectedCarts = s.rejectedCarts := rfl
@[simp] theorem State.setMapper_pending (s : State) (m : Option MapperRef) : (s.setMapper m).pending = s.pending := rfl
@[simp] theorem State.setMapper_out (s : State) (m : Option MapperRef) : (s.setMapper m).out = s.out := rfl

/-! ## setNoise -/

@[simp] theorem State.setNoise_space (s : State) (n : NoiseChannel) : (s.setNoise n).space = s.space := rfl
@[simp] theorem State.setNoise_noise (s : State) (n : NoiseChannel) : (s.setNoise n).noise = n := rfl
@[simp] theorem State.setNoise_ports (s : State) (n : NoiseChannel) : (s.setNoise n).ports = s.ports := rfl
@[simp] theorem State.setNoise_fsStep (s : State) (n : NoiseChannel) : (s.setNoise n).fsStep = s.fsStep := rfl
@[simp] theorem State.setNoise_params (s : State) (n : NoiseChannel) : (s.setNoise n).params = s.params := rfl
@[simp] theorem State.setNoise_rejectedCarts (s : State) (n : NoiseChannel) : (s.setNoise n).rejectedCarts = s.rejectedCarts := rfl
@[simp] theorem State.setNoise_pending (s : State) (n : NoiseChannel) : (s.setNoise n).pending = s.pending := rfl
@[simp] theorem State.setNoise_out (s : State) (n : NoiseChannel) : (s.setNoise n).out = s.out := rfl

/-! ## setArray and setByte -/

@[simp] theorem State.setArray_noise (s : State) (b : Backing) (m : Memory) : (s.setArray b m).noise = s.noise := by
  cases b <;> rfl
@[simp] theorem State.setArray_ports (s : State) (b : Backing) (m : Memory) : (s.setArray b m).ports = s.ports := by
  cases b <;> rfl
@[simp] theorem State.setArray_fsStep (s : State) (b : Backing) (m : Memory) : (s.setArray b m).fsStep = s.fsStep := by
  cases b <;> rfl
@[simp] theorem State.setArray_params (s : State) (b : Backing) (m : Memory) : (s.setArray b m).params = s.params := by
  cases b <;> rfl
@[simp] theorem State.setArray_rejectedCarts (s : State) (b : Backing) (m : Memory) : (s.setArray b m).rejectedCarts = s.rejectedCarts := by
  cases b <;> rfl
@[simp] theorem State.setArray_pending (s : State) (b : Backing) (m : Memory) : (s.setArray b m).pending = s.pending := by
  cases b <;> rfl
@[simp] theorem State.setArray_out (s : State) (b : Backing) (m : Memory) : (s.setArray b m).out = s.out := by
  cases b <;> rfl
@[simp] theorem State.setArray_ie (s : State) (b : Backing) (m : Memory) : (s.setArray b m).space.ie = s.space.ie := by
  cases b <;> rfl
@[simp] theorem State.setArray_iflag (s : State) (b : Backing) (m : Memory) : (s.setArray b m).space.iflag = s.space.iflag := by
  cases b <;> rfl
@[simp] theorem State.setArray_key1 (s : State) (b : Backing) (m : Memory) : (s.setArray b m).space.key1 = s.space.key1 := by
  cases b <;> rfl
@[simp] theorem State.setArray_mapper (s : State) (b : Backing) (m : Memory) : (s.setArray b m).space.mapper = s.space.mapper := by
  cases b <;> rfl

@[simp] theorem State.setArray_array_same (s : State) (b : Backing) (m : Memory) : (s.setArray b m).array b = m := by
  cases b <;> rfl

theorem State.setArray_array_other (s : State) (b c : Backing) (m : Memory) (h : c ≠ b) :
    (s.setArray b m).array c = s.array c := by
  cases b <;> cases c <;> first | rfl | exact absurd rfl h

@[simp] theorem State.setByte_noise (s : State) (l : Location) (v : Byte) : (s.setByte l v).noise = s.noise := by
  unfold State.setByte; split <;> simp
@[simp] theorem State.setByte_ports (s : State) (l : Location) (v : Byte) : (s.setByte l v).ports = s.ports := by
  unfold State.setByte; split <;> simp
@[simp] theorem State.setByte_fsStep (s : State) (l : Location) (v : Byte) : (s.setByte l v).fsStep = s.fsStep := by
  unfold State.setByte; split <;> simp
@[simp] theorem State.setByte_params (s : State) (l : Location) (v : Byte) : (s.setByte l v).params = s.params := by
  unfold State.setByte; split <;> simp
@[simp] theorem State.setByte_rejectedCarts (s : State) (l : Location) (v : Byte) : (s.setByte l v).rejectedCarts = s.rejectedCarts := by
  unfold State.setByte; split <;> simp
@[simp] theorem State.setByte_pending (s : State) (l : Location) (v : Byte) : (s.setByte l v).pending = s.pending := by
  unfold State.setByte; split <;> simp
@[simp] theorem State.setByte_out (s : State) (l : Location) (v : Byte) : (s.setByte l v).out = s.out := by
  unfold State.setByte; split <;> simp
@[simp] theorem State.setByte_ie (s : State) (l : Location) (v : Byte) : (s.setByte l v).space.ie = s.space.ie := by
  unfold State.setByte; split <;> simp
@[simp] theorem State.setByte_iflag (s : State) (l : Location) (v : Byte) : (s.setByte l v).space.iflag = s.space.iflag := by
  unfold State.setByte; split <;> simp
@[simp] theorem State.setByte_key1 (s : State) (l : Location) (v : Byte) : (s.setByte l v).space.key1 = s.space.key1 := by
  unfold State.setByte; split <;> simp
@[simp] theorem State.setByte_mapper (s : State) (l : Location) (v : Byte) : (s.setByte l v).space.mapper = s.space.mapper := by
  unfold State.setByte; split <;> simp

/-! ## array and byteAt of the updates that leave the arrays alone -/

@[simp] theorem State.begin_array (s : State) (b : Backing) : s.begin.array b = s.array b := by
  cases b <;> rfl
@[simp] theorem State.begin_byteAt (s : State) (l : Location) : s.begin.byteAt l = s.byteAt l := by
  simp [State.byteAt]
@[simp] theorem State.emit_array (s : State) (e : Event) (b : Backing) : (s.emit e).array b = s.array b := by
  cases b <;> rfl
@[simp] theorem State.emit_byteAt (s : State) (e : Event) (l : Location) : (s.emit e).byteAt l = s.byteAt l := by
  simp [State.byteAt]
@[simp] theorem State.diagnose_array (s : State) (k : AccessKind) (a : Addr) (b : Backing) : (s.diagnose k a).array b = s.array b := by
  cases b <;> rfl
@[simp] theorem State.diagnose_byteAt (s : State) (k : AccessKind) (a : Addr) (l : Location) : (s.diagnose k a).byteAt l = s.byteAt l := by
  simp [State.byteAt]
@[simp] theorem State.respond_array (s : State) (d : Datum) (b : Backing) : (s.respond d).array b = s.array b := by
  cases b <;> rfl
@[simp] theorem State.respond_byteAt (s : State) (d : Datum) (l : Location) : (s.respond d).byteAt l = s.byteAt l := by
  simp [State.byteAt]
@[simp] theorem State.setIe_array (s : State) (v : Byte) (b : Backing) : (s.setIe v).array b = s.array b := by
  cases b <;> rfl
@[simp] theorem State.setIe_byteAt (s : State) (v : Byte) (l : Location) : (s.setIe v).byteAt l = s.byteAt l := by
  simp [State.byteAt]
@[simp] theorem State.setIflag_array (s : State) (f : BitVec 5) (b : Backing) : (s.setIflag f).array b = s.array b := by
  cases b <;> rfl
@[simp] theorem State.setIflag_byteAt (s : State) (f : BitVec 5) (l : Location) : (s.setIflag f).byteAt l = s.byteAt l := by
  simp [State.byteAt]
@[simp] theorem State.setKey1_array (s : State) (k : BitVec 1) (b : Backing) : (s.setKey1 k).array b = s.array b := by
  cases b <;> rfl
@[simp] theorem State.setKey1_byteAt (s : State) (k : BitVec 1) (l : Location) : (s.setKey1 k).byteAt l = s.byteAt l := by
  simp [State.byteAt]
@[simp] theorem State.setMapper_array (s : State) (m : Option MapperRef) (b : Backing) : (s.setMapper m).array b = s.array b := by
  cases b <;> rfl
@[simp] theorem State.setMapper_byteAt (s : State) (m : Option MapperRef) (l : Location) : (s.setMapper m).byteAt l = s.byteAt l := by
  simp [State.byteAt]
@[simp] theorem State.setNoise_array (s : State) (n : NoiseChannel) (b : Backing) : (s.setNoise n).array b = s.array b := by
  cases b <;> rfl
@[simp] theorem State.setNoise_byteAt (s : State) (n : NoiseChannel) (l : Location) : (s.setNoise n).byteAt l = s.byteAt l := by
  simp [State.byteAt]

/-! ## setHidden and callPort -/

@[simp] theorem State.setHidden_noise (s : State) (port : Port) (st : Nat) : (s.setHidden port st).noise = s.noise := by
  cases port <;> rfl
@[simp] theorem State.setHidden_fsStep (s : State) (port : Port) (st : Nat) : (s.setHidden port st).fsStep = s.fsStep := by
  cases port <;> rfl
@[simp] theorem State.setHidden_params (s : State) (port : Port) (st : Nat) : (s.setHidden port st).params = s.params := by
  cases port <;> rfl
@[simp] theorem State.setHidden_rejectedCarts (s : State) (port : Port) (st : Nat) : (s.setHidden port st).rejectedCarts = s.rejectedCarts := by
  cases port <;> rfl
@[simp] theorem State.setHidden_pending (s : State) (port : Port) (st : Nat) : (s.setHidden port st).pending = s.pending := by
  cases port <;> rfl
@[simp] theorem State.setHidden_out (s : State) (port : Port) (st : Nat) : (s.setHidden port st).out = s.out := by
  cases port <;> rfl
@[simp] theorem State.setHidden_vram (s : State) (port : Port) (st : Nat) : (s.setHidden port st).space.vram = s.space.vram := by
  cases port <;> rfl
@[simp] theorem State.setHidden_wram0 (s : State) (port : Port) (st : Nat) : (s.setHidden port st).space.wram0 = s.space.wram0 := by
  cases port <;> rfl
@[simp] theorem State.setHidden_wram1 (s : State) (port : Port) (st : Nat) : (s.setHidden port st).space.wram1 = s.space.wram1 := by
  cases port <;> rfl
@[simp] theorem State.setHidden_oam (s : State) (port : Port) (st : Nat) : (s.setHidden port st).space.oam = s.space.oam := by
  cases port <;> rfl
@[simp] theorem State.setHidden_hram (s : State) (port : Port) (st : Nat) : (s.setHidden port st).space.hram = s.space.hram := by
  cases port <;> rfl
@[simp] theorem State.setHidden_ie (s : State) (port : Port) (st : Nat) : (s.setHidden port st).space.ie = s.space.ie := by
  cases port <;> rfl
@[simp] theorem State.setHidden_iflag (s : State) (port : Port) (st : Nat) : (s.setHidden port st).space.iflag = s.space.iflag := by
  cases port <;> rfl
@[simp] theorem State.setHidden_key1 (s : State) (port : Port) (st : Nat) : (s.setHidden port st).space.key1 = s.space.key1 := by
  cases port <;> rfl

@[simp] theorem State.setHidden_mapper_isSome (s : State) (port : Port) (st : Nat) :
    (s.setHidden port st).space.mapper.isSome = s.space.mapper.isSome := by
  cases port <;> simp [State.setHidden]

@[simp] theorem State.setHidden_array (s : State) (port : Port) (st : Nat) (b : Backing) :
    (s.setHidden port st).array b = s.array b := by
  cases b <;> simp [State.array]

@[simp] theorem State.setHidden_byteAt (s : State) (port : Port) (st : Nat) (l : Location) :
    (s.setHidden port st).byteAt l = s.byteAt l := by
  simp [State.byteAt]

@[simp] theorem State.hidden_emit (s : State) (e : Event) (port : Port) : (s.emit e).hidden port = s.hidden port := by
  cases port <;> rfl

@[simp] theorem State.hidden_begin (s : State) (port : Port) : s.begin.hidden port = s.hidden port := by
  cases port <;> rfl

@[simp] theorem State.callPort_noise (s : State) (port : Port) (c : PortCall) : (s.callPort port c).noise = s.noise := by
  simp [State.callPort]
@[simp] theorem State.callPort_fsStep (s : State) (port : Port) (c : PortCall) : (s.callPort port c).fsStep = s.fsStep := by
  simp [State.callPort]
@[simp] theorem State.callPort_params (s : State) (port : Port) (c : PortCall) : (s.callPort port c).params = s.params := by
  simp [State.callPort]
@[simp] theorem State.callPort_rejectedCarts (s : State) (port : Port) (c : PortCall) : (s.callPort port c).rejectedCarts = s.rejectedCarts := by
  simp [State.callPort]
@[simp] theorem State.callPort_pending (s : State) (port : Port) (c : PortCall) : (s.callPort port c).pending = s.pending := by
  simp [State.callPort]
@[simp] theorem State.callPort_vram (s : State) (port : Port) (c : PortCall) : (s.callPort port c).space.vram = s.space.vram := by
  simp [State.callPort]
@[simp] theorem State.callPort_wram0 (s : State) (port : Port) (c : PortCall) : (s.callPort port c).space.wram0 = s.space.wram0 := by
  simp [State.callPort]
@[simp] theorem State.callPort_wram1 (s : State) (port : Port) (c : PortCall) : (s.callPort port c).space.wram1 = s.space.wram1 := by
  simp [State.callPort]
@[simp] theorem State.callPort_oam (s : State) (port : Port) (c : PortCall) : (s.callPort port c).space.oam = s.space.oam := by
  simp [State.callPort]
@[simp] theorem State.callPort_hram (s : State) (port : Port) (c : PortCall) : (s.callPort port c).space.hram = s.space.hram := by
  simp [State.callPort]
@[simp] theorem State.callPort_ie (s : State) (port : Port) (c : PortCall) : (s.callPort port c).space.ie = s.space.ie := by
  simp [State.callPort]
@[simp] theorem State.callPort_iflag (s : State) (port : Port) (c : PortCall) : (s.callPort port c).space.iflag = s.space.iflag := by
  simp [State.callPort]
@[simp] theorem State.callPort_key1 (s : State) (port : Port) (c : PortCall) : (s.callPort port c).space.key1 = s.space.key1 := by
  simp [State.callPort]

@[simp] theorem State.callPort_mapper_isSome (s : State) (port : Port) (c : PortCall) :
    (s.callPort port c).space.mapper.isSome = s.space.mapper.isSome := by
  simp [State.callPort]

@[simp] theorem State.callPort_out (s : State) (port : Port) (c : PortCall) :
    (s.callPort port c).out = { s.out with events := s.out.events ++ [.call port c] } := by
  simp [State.callPort]

@[simp] theorem State.callPort_byteAt (s : State) (port : Port) (c : PortCall) (l : Location) :
    (s.callPort port c).byteAt l = s.byteAt l := by
  simp [State.callPort]

/-! ## Starting an operation -/

/-- The response of the operation before is forgotten: starting twice, or after a response, is starting. -/
@[simp] theorem State.begin_begin (s : State) : s.begin.begin = s.begin := rfl

@[simp] theorem State.begin_respond (s : State) (d : Datum) : (s.respond d).begin = s.begin := rfl

@[simp] theorem State.begin_emit (s : State) (e : Event) : (s.emit e).begin = s.begin := rfl

@[simp] theorem State.begin_diagnose (s : State) (k : AccessKind) (a : Addr) : (s.diagnose k a).begin = s.begin := rfl

end Sys2Proof.Machine
end

