-- ==== Sys2Proof/Laws/Memory.lean ====
section
/-! SUPPORT. The laws of the byte arrays: a read after a write, every other index left alone, the canonical form kept; and
the same of one storage byte of the state. -/

namespace Sys2Proof.Machine

@[simp] theorem Memory.read_nil (i : Nat) : Memory.read [] i = 0 := rfl

theorem Memory.read_cons (c : Host.Cell) (rest : Memory) (i : Nat) :
    Memory.read (c :: rest) i = if c.1 = i then c.2 else Memory.read rest i := rfl

theorem Memory.read_insert_same (m : Memory) (i : Nat) (v : Byte) (h : ∀ c ∈ m, c.1 ≠ i) :
    Memory.read (Memory.insert m i v) i = v := by
  induction m with
  | nil => simp [Memory.insert, Memory.read_cons]
  | cons c rest ih =>
    have hc := h c (by simp)
    have hrest := ih fun d hd => h d (by simp [hd])
    unfold Memory.insert
    split <;> simp [Memory.read_cons, hc, hrest]

theorem Memory.read_insert_other (m : Memory) (i j : Nat) (v : Byte) (h : j ≠ i) :
    Memory.read (Memory.insert m i v) j = Memory.read m j := by
  induction m with
  | nil => simp [Memory.insert, Memory.read_cons, h.symm]
  | cons c rest ih =>
    unfold Memory.insert
    split <;> simp [Memory.read_cons, ih, h.symm]

theorem Memory.read_filter_same (m : Memory) (i : Nat) : Memory.read (m.filter fun c => c.1 != i) i = 0 := by
  induction m with
  | nil => rfl
  | cons c rest ih =>
    by_cases hc : c.1 = i
    · simp [hc, ih]
    · simp [hc, ih, Memory.read_cons]

theorem Memory.read_filter_other (m : Memory) (i j : Nat) (h : j ≠ i) :
    Memory.read (m.filter fun c => c.1 != i) j = Memory.read m j := by
  induction m with
  | nil => rfl
  | cons c rest ih =>
    by_cases hc : c.1 = i
    · have : c.1 ≠ j := fun e => h (e ▸ hc)
      simp [hc, ih, Memory.read_cons, h.symm]
    · simp [hc, ih, Memory.read_cons]

/-- A read after a write to the same index gives the byte written, whatever the list. -/
@[simp] theorem Memory.read_write_same (m : Memory) (i : Nat) (v : Byte) : Memory.read (Memory.write m i v) i = v := by
  unfold Memory.write
  split
  · next h => rw [Memory.read_filter_same, h]
  · exact Memory.read_insert_same _ _ _ fun c hc => by simpa using (List.mem_filter.mp hc).2

/-- A write leaves every other index alone, whatever the list. -/
theorem Memory.read_write_other (m : Memory) (i j : Nat) (v : Byte) (h : j ≠ i) :
    Memory.read (Memory.write m i v) j = Memory.read m j := by
  unfold Memory.write
  split
  · exact Memory.read_filter_other _ _ _ h
  · rw [Memory.read_insert_other _ _ _ _ h, Memory.read_filter_other _ _ _ h]

@[simp] theorem Memory.wf_nil (size : Nat) : Memory.wf size [] = true := rfl

theorem Memory.wfFrom_cons (size lo : Nat) (c : Host.Cell) (rest : Memory) :
    Memory.wfFrom size lo (c :: rest) = true ↔
      lo ≤ c.1 ∧ c.1 < size ∧ c.2 ≠ 0 ∧ Memory.wfFrom size (c.1 + 1) rest = true := by
  simp [Memory.wfFrom, and_assoc]

theorem Memory.wfFrom_mono (size lo lo' : Nat) (m : Memory) (h : lo' ≤ lo) (hm : Memory.wfFrom size lo m = true) :
    Memory.wfFrom size lo' m = true := by
  cases m with
  | nil => rfl
  | cons c rest =>
    rw [Memory.wfFrom_cons] at hm ⊢
    exact ⟨h.trans hm.1, hm.2⟩

theorem Memory.wfFrom_filter (size i lo : Nat) (m : Memory) (hm : Memory.wfFrom size lo m = true) :
    Memory.wfFrom size lo (m.filter fun c => c.1 != i) = true := by
  induction m generalizing lo with
  | nil => rfl
  | cons c rest ih =>
    obtain ⟨h1, h2, h3, h4⟩ := (Memory.wfFrom_cons _ _ _ _).mp hm
    by_cases hc : c.1 = i
    · simpa [hc] using ih lo (Memory.wfFrom_mono _ _ _ _ (by omega) h4)
    · simpa [hc] using (Memory.wfFrom_cons _ _ _ _).mpr ⟨h1, h2, h3, ih _ h4⟩

theorem Memory.wfFrom_insert (size lo i : Nat) (v : Byte) (m : Memory) (hm : Memory.wfFrom size lo m = true)
    (hfresh : ∀ c ∈ m, c.1 ≠ i) (hlo : lo ≤ i) (hi : i < size) (hv : v ≠ 0) :
    Memory.wfFrom size lo (Memory.insert m i v) = true := by
  induction m generalizing lo with
  | nil => exact (Memory.wfFrom_cons _ _ _ _).mpr ⟨hlo, hi, hv, rfl⟩
  | cons c rest ih =>
    obtain ⟨h1, h2, h3, h4⟩ := (Memory.wfFrom_cons _ _ _ _).mp hm
    have hc := hfresh c (by simp)
    unfold Memory.insert
    split
    · next h => exact (Memory.wfFrom_cons _ _ _ _).mpr ⟨hlo, hi, hv, (Memory.wfFrom_cons _ _ _ _).mpr ⟨h, h2, h3, h4⟩⟩
    · next h =>
      exact (Memory.wfFrom_cons _ _ _ _).mpr
        ⟨h1, h2, h3, ih _ h4 (fun d hd => hfresh d (by simp [hd])) (by omega)⟩

/-- A write inside the array keeps the canonical form. -/
theorem Memory.wf_write (size i : Nat) (v : Byte) (m : Memory) (hm : Memory.wf size m = true) (hi : i < size) :
    Memory.wf size (Memory.write m i v) = true := by
  unfold Memory.write
  have hf := Memory.wfFrom_filter size i 0 m hm
  split
  · exact hf
  · next hv =>
    exact Memory.wfFrom_insert size 0 i v _ hf (fun c hc => by simpa using (List.mem_filter.mp hc).2) (by omega) hi hv

/-! ## Storage bytes -/

theorem State.byteAt_setByte_same (s : State) (l : Location) (v : Byte) (h : l.index < l.array.size) :
    (s.setByte l v).byteAt l = v := by
  simp [State.setByte, h, State.byteAt]

theorem State.byteAt_setByte_other (s : State) (l k : Location) (v : Byte) (h : k ≠ l) :
    (s.setByte l v).byteAt k = s.byteAt k := by
  unfold State.setByte
  split
  · by_cases ha : k.array = l.array
    · have hi : k.index ≠ l.index := fun e => h (by cases k; cases l; simp_all)
      simp [State.byteAt, ha, Memory.read_write_other _ _ _ _ hi]
    · simp [State.byteAt, State.setArray_array_other _ _ _ _ ha]
  · rfl

/-- The canonical form of all arrays depends on the arrays alone. -/
theorem State.memWf_iff (s : State) : s.memWf = true ↔ ∀ b : Backing, Memory.wf b.size (s.array b) = true := by
  constructor
  · intro h b
    simp only [State.memWf, Bool.and_eq_true, and_assoc] at h
    cases b <;> simp_all [State.array, Backing.size]
  · intro h
    have := h .vram; have := h .wram0; have := h .wram1; have := h .oam; have := h .hram
    simp_all [State.memWf, State.array, Backing.size]

/-- Every write of a storage byte keeps the canonical form. -/
theorem State.memWf_setByte (s : State) (l : Location) (v : Byte) (h : s.memWf = true) : (s.setByte l v).memWf = true := by
  rw [State.memWf_iff] at h ⊢
  intro b
  unfold State.setByte
  split
  · next hl =>
    by_cases hb : b = l.array
    · subst hb
      simpa using Memory.wf_write _ _ _ _ (h _) hl
    · simpa [State.setArray_array_other _ _ _ _ hb] using h b
  · exact h b

/-- The arrays at power-on are in canonical form. -/
theorem State.memWf_reset : State.reset.memWf = true := rfl

end Sys2Proof.Machine
end

