-- ==== Sys2Proof/Laws/Bus.lean ====
section
/-! SUPPORT. One lemma per shared bus operation: everything a byte read, a peek and a byte write can do, and when they fault. -/

namespace Sys2Proof.Machine

/-! ## Outcomes -/

@[simp] theorem finish_ok (t : State) : finish (.ok t) = .next t := rfl

@[simp] theorem finish_error (f : Fault) : finish (.error f) = .fault f := rfl

@[simp] theorem finishByte_ok (v : Byte) (t : State) : finishByte (.ok (v, t)) = .next (t.respond (.byte v)) := rfl

@[simp] theorem finishByte_error (f : Fault) : finishByte (.error f) = .fault f := rfl

theorem finish_eq_next (r : Except Fault State) (t : State) : finish r = .next t ↔ r = .ok t := by
  cases r <;> simp [finish]

theorem finish_eq_fault (r : Except Fault State) (f : Fault) : finish r = .fault f ↔ r = .error f := by
  cases r <;> simp [finish]

theorem finishByte_eq_next (r : Except Fault (Byte × State)) (t : State) :
    finishByte r = .next t ↔ ∃ v u, r = .ok (v, u) ∧ t = u.respond (.byte v) := by
  cases r with
  | error f => simp [finishByte]
  | ok vu => exact ⟨fun h => ⟨vu.1, vu.2, rfl, by simpa [finishByte] using h.symm⟩, by rintro ⟨v, u, h, rfl⟩; cases h; rfl⟩

theorem finishByte_eq_fault (r : Except Fault (Byte × State)) (f : Fault) : finishByte r = .fault f ↔ r = .error f := by
  cases r <;> simp [finishByte]

/-! ## Mapper windows -/

theorem withMapper_eq_ok {α : Type} (a : Addr) (s : State) (k : Port → α) (x : α) :
    withMapper a s k = .ok x ↔ ∃ m, s.space.mapper = some m ∧ x = k (.mapper m.cart) := by
  unfold withMapper
  split <;> simp_all [raise, eq_comm]

theorem withMapper_eq_error {α : Type} (a : Addr) (s : State) (k : Port → α) (f : Fault) :
    withMapper a s k = .error f ↔ s.space.mapper = none ∧ f = .missingBackend a := by
  unfold withMapper
  split <;> simp_all [raise, eq_comm]

/-! ## What an access that stores nothing leaves alone -/

/-- Everything but the collaborators' hidden states and the response: the arrays, the registers, whether a mapper is
attached, NoiseChannel, the inputs, the parameters and the commands issued. -/
structure Quiet (s t : State) : Prop where
  array : ∀ b, t.array b = s.array b
  ie : t.space.ie = s.space.ie
  iflag : t.space.iflag = s.space.iflag
  key1 : t.space.key1 = s.space.key1
  mapper : t.space.mapper.isSome = s.space.mapper.isSome
  noise : t.noise = s.noise
  fsStep : t.fsStep = s.fsStep
  params : t.params = s.params
  rejectedCarts : t.rejectedCarts = s.rejectedCarts
  pending : t.pending = s.pending

theorem Quiet.rfl' (s : State) : Quiet s s := by constructor <;> intros <;> rfl

theorem Quiet.byteAt {s t : State} (h : Quiet s t) (l : Location) : t.byteAt l = s.byteAt l := by
  simp [State.byteAt, h.array]

theorem Quiet.memWf {s t : State} (h : Quiet s t) : t.memWf = s.memWf := by
  rw [Bool.eq_iff_iff, State.memWf_iff, State.memWf_iff]
  simp [h.array]

theorem Quiet.trans {s t u : State} (h : Quiet s t) (k : Quiet t u) : Quiet s u := by
  constructor <;> intros <;>
    simp [k.array, h.array, k.ie, h.ie, k.iflag, h.iflag, k.key1, h.key1, k.mapper, h.mapper, k.noise, h.noise, k.fsStep,
      h.fsStep, k.params, h.params, k.rejectedCarts, h.rejectedCarts, k.pending, h.pending]

theorem Quiet.begin (s : State) : Quiet s s.begin := by constructor <;> intros <;> simp

theorem Quiet.respond (s : State) (d : Datum) : Quiet s (s.respond d) := by constructor <;> intros <;> simp

theorem Quiet.emit (s : State) (e : Event) : Quiet s (s.emit e) := by constructor <;> intros <;> simp

theorem Quiet.diagnose (s : State) (k : AccessKind) (a : Addr) : Quiet s (s.diagnose k a) := by
  constructor <;> intros <;> simp

theorem Quiet.callPort (s : State) (port : Port) (c : PortCall) : Quiet s (s.callPort port c) := by
  constructor <;> intros <;> simp [State.array]

/-! ## Reads -/

/-- A read faults exactly in a mapper window without a mapper (R235). -/
theorem readRegion_eq_error (r : Region) (a : Addr) (s : State) (f : Fault) :
    readRegion r a s = .error f ↔ (r = .rom ∨ r = .extram) ∧ s.space.mapper = none ∧ f = .missingBackend a := by
  cases r <;> simp [readRegion, withMapper_eq_error]

/-- A read that completes stores nothing: it may move the collaborator it reads, and speaks in the response (R77). -/
theorem readRegion_quiet (r : Region) (a : Addr) (s t : State) (v : Byte) (h : readRegion r a s = .ok (v, t)) :
    Quiet s t := by
  cases r <;> simp only [readRegion, withMapper_eq_ok, Except.ok.injEq, Prod.mk.injEq] at h
  case rom => obtain ⟨m, -, h⟩ := h; simp only [portRead, Prod.mk.injEq] at h; exact h.2 ▸ Quiet.callPort _ _ _
  case extram => obtain ⟨m, -, h⟩ := h; simp only [portRead, Prod.mk.injEq] at h; exact h.2 ▸ Quiet.callPort _ _ _
  case lowio =>
    unfold lowIoRead at h
    split at h
    · simp only [portRead, Prod.mk.injEq] at h; exact h.2 ▸ Quiet.callPort _ _ _
    · simp only [unmappedRead, Prod.mk.injEq] at h; exact h.2 ▸ Quiet.diagnose _ _ _
  case sound => simp only [portRead, Prod.mk.injEq] at h; exact h.2 ▸ Quiet.callPort _ _ _
  case video => simp only [portRead, Prod.mk.injEq] at h; exact h.2 ▸ Quiet.callPort _ _ _
  case ioUnmapped => simp only [unmappedRead, Prod.mk.injEq] at h; exact h.2 ▸ Quiet.diagnose _ _ _
  all_goals exact h.2 ▸ Quiet.rfl' _

/-- A peek faults exactly where a read does (R161). -/
theorem peekRegion_eq_error (r : Region) (a : Addr) (s : State) (f : Fault) :
    peekRegion r a s = .error f ↔ (r = .rom ∨ r = .extram) ∧ s.space.mapper = none ∧ f = .missingBackend a := by
  cases r <;> simp [peekRegion, readRegion, withMapper_eq_error]

/-- A peek that completes changes the response and nothing else (R160, R161). -/
theorem peekRegion_only_out (r : Region) (a : Addr) (s t : State) (v : Byte) (h : peekRegion r a s = .ok (v, t)) :
    ∃ o, t = { s with out := o } := by
  cases r <;>
    simp only [peekRegion, readRegion, withMapper_eq_ok, Except.ok.injEq, Prod.mk.injEq, portPeek, unmappedRead] at h
  case rom => obtain ⟨m, -, h⟩ := h; exact ⟨_, h.2⟩
  case extram => obtain ⟨m, -, h⟩ := h; exact ⟨_, h.2⟩
  case lowio =>
    unfold lowIoPeek portPeek unmappedRead at h
    split at h <;> simp only [Prod.mk.injEq] at h <;> exact ⟨_, h.2.symm⟩
  all_goals exact ⟨_, h.2.symm⟩

/-! ## Writes -/

/-- A write faults exactly in a mapper window without a mapper (R235). -/
theorem writeRegion_eq_error (d : WriteDest) (a : Addr) (v : Byte) (s : State) (f : Fault) :
    writeRegion d a v s = .error f ↔
      (d = .region .rom ∨ d = .region .extram) ∧ s.space.mapper = none ∧ f = .missingBackend a := by
  cases d with
  | dma => simp [writeRegion]
  | region r => cases r <;> simp [writeRegion, withMapper_eq_error]

/-- Everything a write that completes can do (R140): store one byte of an array, store one of the three registers, or leave
the block's own state alone (a call on a collaborator, a diagnostic, or nothing). -/
theorem writeRegion_cases (d : WriteDest) (a : Addr) (v : Byte) (s t : State) (h : writeRegion d a v s = .ok t) :
    (∃ l, t = s.setByte l v) ∨ t = s.setIflag (ifStore v) ∨ t = s.setKey1 (key1Store v) ∨ t = s.setIe v ∨ Quiet s t := by
  cases d with
  | dma =>
    simp only [writeRegion, Except.ok.injEq] at h
    exact .inr (.inr (.inr (.inr (h ▸ Quiet.callPort _ _ _))))
  | region r =>
    cases r <;> simp only [writeRegion, withMapper_eq_ok, Except.ok.injEq, portWrite] at h
    case rom => obtain ⟨m, -, rfl⟩ := h; exact .inr (.inr (.inr (.inr (Quiet.callPort _ _ _))))
    case extram => obtain ⟨m, -, rfl⟩ := h; exact .inr (.inr (.inr (.inr (Quiet.callPort _ _ _))))
    case lowio =>
      unfold lowIoWrite portWrite at h
      split at h <;> subst h
      · exact .inr (.inr (.inr (.inr (Quiet.callPort _ _ _))))
      · exact .inr (.inr (.inr (.inr (Quiet.diagnose _ _ _))))
    case sound => exact .inr (.inr (.inr (.inr (h ▸ Quiet.callPort _ _ _))))
    case video => exact .inr (.inr (.inr (.inr (h ▸ Quiet.callPort _ _ _))))
    case unusable => exact .inr (.inr (.inr (.inr (h ▸ Quiet.rfl' _))))
    case ioUnmapped => exact .inr (.inr (.inr (.inr (h ▸ Quiet.diagnose _ _ _))))
    case ifReg => exact .inr (.inl h.symm)
    case key1 => exact .inr (.inr (.inl h.symm))
    case ie => exact .inr (.inr (.inr (.inl h.symm)))
    all_goals exact .inl ⟨_, h.symm⟩

/-! ## Complete accesses -/

theorem memRead_eq_error (a : Addr) (s : State) (f : Fault) :
    memRead a s = .error f ↔
      (decodeRead s.params a = .rom ∨ decodeRead s.params a = .extram) ∧ s.space.mapper = none ∧ f = .missingBackend a :=
  readRegion_eq_error _ _ _ _

theorem memRead_quiet (a : Addr) (s t : State) (v : Byte) (h : memRead a s = .ok (v, t)) : Quiet s t :=
  readRegion_quiet _ _ _ _ _ h

theorem memWrite_eq_error (a : Addr) (v : Byte) (s : State) (f : Fault) :
    memWrite a v s = .error f ↔
      (decodeWrite s.params a = .region .rom ∨ decodeWrite s.params a = .region .extram) ∧ s.space.mapper = none ∧
        f = .missingBackend a :=
  writeRegion_eq_error _ _ _ _ _

end Sys2Proof.Machine
end

