-- ==== Sys2Proof/Laws/Encoding.lean ====
section
/-! SUPPORT. The fields of an assembled command word, one lemma per field, and the destinations of the address dispatch as
ranges. -/

namespace Sys2Proof

@[simp] theorem opField_word (op : Byte) (a d : BitVec 16) : opField (word op a d) = op := by
  ext i hi
  simp only [opField, word, BitVec.getElem_extractLsb', BitVec.getLsbD_append]
  simp [show ¬ 32 + i < 16 by omega, show ¬ 32 + i - 16 < 16 by omega, show 32 + i - 16 - 16 = i by omega,
    BitVec.getLsbD_eq_getElem hi]

@[simp] theorem aField_word (op : Byte) (a d : BitVec 16) : aField (word op a d) = a := by
  ext i hi
  simp only [aField, word, BitVec.getElem_extractLsb', BitVec.getLsbD_append]
  simp [hi]

@[simp] theorem dField_word (op : Byte) (a d : BitVec 16) : dField (word op a d) = d := by
  ext i hi
  simp only [dField, word, BitVec.getElem_extractLsb', BitVec.getLsbD_append]
  simp [hi]

/-- The byte datum is the low byte of D. -/
@[simp] theorem dataField_word (op : Byte) (a d : BitVec 16) : dataField (word op a d) = d.extractLsb' 0 8 := by
  ext i hi
  simp only [dataField, word, BitVec.getElem_extractLsb', BitVec.getLsbD_append]
  simp [show i < 16 by omega]

/-- The frame step is the low three bits of D. -/
@[simp] theorem stepField_word (op : Byte) (a d : BitVec 16) : stepField (word op a d) = d.extractLsb' 0 3 := by
  ext i hi
  simp only [stepField, word, BitVec.getElem_extractLsb', BitVec.getLsbD_append]
  simp [show i < 16 by omega]

/-- The cycle count is `A ++ D` (R90). -/
@[simp] theorem cyclesField_word (op : Byte) (a d : BitVec 16) : cyclesField (word op a d) = (a ++ d : BitVec 32) := by
  apply BitVec.eq_of_getLsbD_eq
  intro i hi
  rw [show (a ++ d : BitVec 32).getLsbD i = (a ++ d).getLsbD i from rfl]
  simp only [cyclesField, word, BitVec.getLsbD_extractLsb', BitVec.getLsbD_append]
  by_cases h : i < 16
  · simp [h, hi]
  · simp [h, hi, show i - 16 < 16 by omega]

/-- A byte widened into D is the byte datum of the word. -/
@[simp] theorem data_of_widened (v : Byte) : (v.setWidth 16).extractLsb' 0 8 = v := by
  ext i hi
  simp [BitVec.getElem_extractLsb', show i < 16 by omega, BitVec.getLsbD_eq_getElem hi]

/-- A frame step widened into D is the frame step of the word. -/
@[simp] theorem step_of_widened (v : BitVec 3) : (v.setWidth 16).extractLsb' 0 3 = v := by
  ext i hi
  simp [BitVec.getElem_extractLsb', show i < 16 by omega, BitVec.getLsbD_eq_getElem hi]

/-- The two halves of a cycle count below 2 ^ 32, joined, are the count. -/
theorem cycles_of_halves (c : Nat) (h : c < 2 ^ 32) :
    (BitVec.ofNat 16 (c / 2 ^ 16) ++ BitVec.ofNat 16 c : BitVec 32).toNat = c := by
  rw [BitVec.toNat_append]
  simp only [BitVec.toNat_ofNat, Nat.shiftLeft_eq]
  rw [← Nat.shiftLeft_eq, ← Nat.shiftLeft_add_eq_or_of_lt (Nat.mod_lt _ (by decide)), Nat.shiftLeft_eq]
  omega

end Sys2Proof
end

