-- ==== Sys2Proof/Laws/Exec.lean ====
section
/-! SUPPORT. What exec does with each operation, one lemma per arm, and what a step does with the command sequence. -/

namespace Sys2Proof.Machine

@[simp] theorem exec_rdRom (a : Addr) (s : State) : exec (.rdRom a) s = execRdRom a s := rfl
@[simp] theorem exec_rdVram (a : Addr) (s : State) : exec (.rdVram a) s = execRdVram a s := rfl
@[simp] theorem exec_rdExtram (a : Addr) (s : State) : exec (.rdExtram a) s = execRdExtram a s := rfl
@[simp] theorem exec_rdWram0 (a : Addr) (s : State) : exec (.rdWram0 a) s = execRdWram0 a s := rfl
@[simp] theorem exec_rdWram1 (a : Addr) (s : State) : exec (.rdWram1 a) s = execRdWram1 a s := rfl
@[simp] theorem exec_rdEcho (a : Addr) (s : State) : exec (.rdEcho a) s = execRdEcho a s := rfl
@[simp] theorem exec_rdOam (a : Addr) (s : State) : exec (.rdOam a) s = execRdOam a s := rfl
@[simp] theorem exec_rdUnusable (a : Addr) (s : State) : exec (.rdUnusable a) s = execRdUnusable a s := rfl
@[simp] theorem exec_rdLowio (a : Addr) (s : State) : exec (.rdLowio a) s = execRdLowio a s := rfl
@[simp] theorem exec_rdIf (a : Addr) (s : State) : exec (.rdIf a) s = execRdIf a s := rfl
@[simp] theorem exec_rdSound (a : Addr) (s : State) : exec (.rdSound a) s = execRdSound a s := rfl
@[simp] theorem exec_rdVideo (a : Addr) (s : State) : exec (.rdVideo a) s = execRdVideo a s := rfl
@[simp] theorem exec_rdKey1 (a : Addr) (s : State) : exec (.rdKey1 a) s = execRdKey1 a s := rfl
@[simp] theorem exec_rdIounmapped (a : Addr) (s : State) : exec (.rdIounmapped a) s = execRdIounmapped a s := rfl
@[simp] theorem exec_rdHram (a : Addr) (s : State) : exec (.rdHram a) s = execRdHram a s := rfl
@[simp] theorem exec_rdIe (a : Addr) (s : State) : exec (.rdIe a) s = execRdIe a s := rfl
@[simp] theorem exec_wrRom (a : Addr) (v : Byte) (s : State) : exec (.wrRom a v) s = execWrRom a v s := rfl
@[simp] theorem exec_wrVram (a : Addr) (v : Byte) (s : State) : exec (.wrVram a v) s = execWrVram a v s := rfl
@[simp] theorem exec_wrExtram (a : Addr) (v : Byte) (s : State) : exec (.wrExtram a v) s = execWrExtram a v s := rfl
@[simp] theorem exec_wrWram0 (a : Addr) (v : Byte) (s : State) : exec (.wrWram0 a v) s = execWrWram0 a v s := rfl
@[simp] theorem exec_wrWram1 (a : Addr) (v : Byte) (s : State) : exec (.wrWram1 a v) s = execWrWram1 a v s := rfl
@[simp] theorem exec_wrEcho (a : Addr) (v : Byte) (s : State) : exec (.wrEcho a v) s = execWrEcho a v s := rfl
@[simp] theorem exec_wrOam (a : Addr) (v : Byte) (s : State) : exec (.wrOam a v) s = execWrOam a v s := rfl
@[simp] theorem exec_wrUnusable (a : Addr) (v : Byte) (s : State) : exec (.wrUnusable a v) s = execWrUnusable a v s := rfl
@[simp] theorem exec_wrLowio (a : Addr) (v : Byte) (s : State) : exec (.wrLowio a v) s = execWrLowio a v s := rfl
@[simp] theorem exec_wrIf (a : Addr) (v : Byte) (s : State) : exec (.wrIf a v) s = execWrIf a v s := rfl
@[simp] theorem exec_wrSound (a : Addr) (v : Byte) (s : State) : exec (.wrSound a v) s = execWrSound a v s := rfl
@[simp] theorem exec_wrVideo (a : Addr) (v : Byte) (s : State) : exec (.wrVideo a v) s = execWrVideo a v s := rfl
@[simp] theorem exec_wrDma (a : Addr) (v : Byte) (s : State) : exec (.wrDma a v) s = execWrDma a v s := rfl
@[simp] theorem exec_wrKey1 (a : Addr) (v : Byte) (s : State) : exec (.wrKey1 a v) s = execWrKey1 a v s := rfl
@[simp] theorem exec_wrIounmapped (a : Addr) (v : Byte) (s : State) : exec (.wrIounmapped a v) s = execWrIounmapped a v s := rfl
@[simp] theorem exec_wrHram (a : Addr) (v : Byte) (s : State) : exec (.wrHram a v) s = execWrHram a v s := rfl
@[simp] theorem exec_wrIe (a : Addr) (v : Byte) (s : State) : exec (.wrIe a v) s = execWrIe a v s := rfl
@[simp] theorem exec_peekRom (a : Addr) (s : State) : exec (.peekRom a) s = execPeekRom a s := rfl
@[simp] theorem exec_peekVram (a : Addr) (s : State) : exec (.peekVram a) s = execPeekVram a s := rfl
@[simp] theorem exec_peekExtram (a : Addr) (s : State) : exec (.peekExtram a) s = execPeekExtram a s := rfl
@[simp] theorem exec_peekWram0 (a : Addr) (s : State) : exec (.peekWram0 a) s = execPeekWram0 a s := rfl
@[simp] theorem exec_peekWram1 (a : Addr) (s : State) : exec (.peekWram1 a) s = execPeekWram1 a s := rfl
@[simp] theorem exec_peekEcho (a : Addr) (s : State) : exec (.peekEcho a) s = execPeekEcho a s := rfl
@[simp] theorem exec_peekOam (a : Addr) (s : State) : exec (.peekOam a) s = execPeekOam a s := rfl
@[simp] theorem exec_peekUnusable (a : Addr) (s : State) : exec (.peekUnusable a) s = execPeekUnusable a s := rfl
@[simp] theorem exec_peekLowio (a : Addr) (s : State) : exec (.peekLowio a) s = execPeekLowio a s := rfl
@[simp] theorem exec_peekIf (a : Addr) (s : State) : exec (.peekIf a) s = execPeekIf a s := rfl
@[simp] theorem exec_peekSound (a : Addr) (s : State) : exec (.peekSound a) s = execPeekSound a s := rfl
@[simp] theorem exec_peekVideo (a : Addr) (s : State) : exec (.peekVideo a) s = execPeekVideo a s := rfl
@[simp] theorem exec_peekKey1 (a : Addr) (s : State) : exec (.peekKey1 a) s = execPeekKey1 a s := rfl
@[simp] theorem exec_peekIounmapped (a : Addr) (s : State) : exec (.peekIounmapped a) s = execPeekIounmapped a s := rfl
@[simp] theorem exec_peekHram (a : Addr) (s : State) : exec (.peekHram a) s = execPeekHram a s := rfl
@[simp] theorem exec_peekIe (a : Addr) (s : State) : exec (.peekIe a) s = execPeekIe a s := rfl
@[simp] theorem exec_rd16 (a : Addr) (s : State) : exec (.rd16 a) s = execRd16 a s := rfl
@[simp] theorem exec_wr16 (a : Addr) (v : Half) (s : State) : exec (.wr16 a v) s = execWr16 a v s := rfl
@[simp] theorem exec_reqint (bit : Nat) (s : State) : exec (.reqint bit) s = execReqint bit s := rfl
@[simp] theorem exec_reset (s : State) : exec (.reset) s = execReset s := rfl
@[simp] theorem exec_tick (s : State) : exec (.tick) s = execTick s := rfl
@[simp] theorem exec_loadcart (cart : BitVec 16) (s : State) : exec (.loadcart cart) s = execLoadcart cart s := rfl
@[simp] theorem exec_nwr0 (v : Byte) (s : State) : exec (.nwr0 v) s = execNwr0 v s := rfl
@[simp] theorem exec_nwr1 (v : Byte) (s : State) : exec (.nwr1 v) s = execNwr1 v s := rfl
@[simp] theorem exec_nwr2 (v : Byte) (s : State) : exec (.nwr2 v) s = execNwr2 v s := rfl
@[simp] theorem exec_nwr3 (v : Byte) (s : State) : exec (.nwr3 v) s = execNwr3 v s := rfl
@[simp] theorem exec_nwr3Trig (v : Byte) (s : State) : exec (.nwr3Trig v) s = execNwr3Trig v s := rfl
@[simp] theorem exec_nrd0 (s : State) : exec (.nrd0) s = execNrd0 s := rfl
@[simp] theorem exec_nrd1 (s : State) : exec (.nrd1) s = execNrd1 s := rfl
@[simp] theorem exec_nrd2 (s : State) : exec (.nrd2) s = execNrd2 s := rfl
@[simp] theorem exec_nrd3 (s : State) : exec (.nrd3) s = execNrd3 s := rfl
@[simp] theorem exec_nadv (cycles : Nat) (s : State) : exec (.nadv cycles) s = execNadv cycles s := rfl
@[simp] theorem exec_nclklen (s : State) : exec (.nclklen) s = execNclklen s := rfl
@[simp] theorem exec_nclkenv (s : State) : exec (.nclkenv) s = execNclkenv s := rfl
@[simp] theorem exec_nenabled (s : State) : exec (.nenabled) s = execNenabled s := rfl
@[simp] theorem exec_nsample (s : State) : exec (.nsample) s = execNsample s := rfl
@[simp] theorem exec_fs (step : BitVec 3) (s : State) : exec (.fs step) s = execFs step s := rfl

/-! ## The rows of one bus operation -/

/-- Every RD row is the read of its region (R120). -/
theorem exec_readInstr (r : Region) (a : Addr) (s : State) :
    exec (readInstr r a) s = finishByte (readRegion r a s.begin) := by cases r <;> rfl

/-- Every PEEK row is the peek of its region (R160, R161). -/
theorem exec_peekInstr (r : Region) (a : Addr) (s : State) :
    exec (peekInstr r a) s = finishByte (peekRegion r a s.begin) := by cases r <;> rfl

/-- Every WR row is the write of its destination (R140). -/
theorem exec_writeInstr (d : WriteDest) (a : Addr) (v : Byte) (s : State) :
    exec (writeInstr d a v) s = finish (writeRegion d a v s.begin) := by
  cases d with
  | dma => rfl
  | region r => cases r <;> rfl

/-! ## Steps -/

theorem fetch_nil (s : State) (h : s.pending = []) : fetch s = none := by simp [fetch, h]

theorem fetch_cons (s : State) (w : CommandWord) (rest : List CommandWord) (h : s.pending = w :: rest) :
    fetch s = some (w, { s with pending := rest }) := by simp [fetch, h]

/-- Everything a step can do (R8, R96): nothing issued, an operation run, or a word that selects none. -/
theorem step_cases (s : State) :
    (s.pending = [] ∧ step s = .next s) ∨
    (∃ w rest i, s.pending = w :: rest ∧ decode s.params w = .ok i ∧ step s = exec i { s with pending := rest }) ∨
    (∃ w rest e, s.pending = w :: rest ∧ decode s.params w = .error e ∧ step s = rejected e) := by
  cases h : s.pending with
  | nil => exact .inl ⟨rfl, by simp [step, fetch_nil s h, idle]⟩
  | cons w rest =>
    cases hd : decode s.params w with
    | ok i => exact .inr (.inl ⟨w, rest, i, rfl, hd, by simp [step, fetch_cons s w rest h, hd]⟩)
    | error e => exact .inr (.inr ⟨w, rest, e, rfl, hd, by simp [step, fetch_cons s w rest h, hd]⟩)

end Sys2Proof.Machine
end

