-- ==== Sys2Proof/Laws/Noise.lean ====
section
/-! SUPPORT. The small lemmas of the NoiseChannel operations: bounds of the views, one turn of the advance loop, and what each
clock and the trigger write. -/

namespace Sys2Proof.Machine

/-- `ivol` is a 4-bit field (R42). -/
theorem ivol_le (n : NoiseChannel) : ivol n ≤ 15 := by
  have := (n.nr1.extractLsb' 4 4).isLt
  unfold ivol; omega

/-- `eper` is a 3-bit field (R42). -/
theorem eper_le (n : NoiseChannel) : eper n ≤ 7 := by
  have := (n.nr1.extractLsb' 0 3).isLt
  unfold eper; omega

/-- `cshift` is a 4-bit field (R43). -/
theorem cshift_le (n : NoiseChannel) : cshift n ≤ 15 := by
  have := (n.nr2.extractLsb' 4 4).isLt
  unfold cshift; omega

/-- The envelope counter is reloaded with 1..8 (R189, R215). -/
theorem envReload_bounds (n : NoiseChannel) : 1 ≤ envReload n ∧ envReload n ≤ 8 := by
  have := eper_le n
  unfold envReload Config.envZeroPeriod
  split <;> omega

/-- BASE_PERIOD lies in 8..112 (R212). -/
theorem basePeriod_bounds (code : BitVec 3) : 8 ≤ basePeriod code ∧ basePeriod code ≤ 112 := by
  unfold basePeriod
  split <;> omega

/-- The LFSR period lies in 8..3670016 (R212), so the loop of R211 ends. -/
theorem period_bounds (n : NoiseChannel) : 8 ≤ period n ∧ period n ≤ Config.maxPeriod := by
  have hb := basePeriod_bounds (dcode n)
  have hp : 2 ^ cshift n ≤ 2 ^ 15 := Nat.pow_le_pow_right (by decide) (cshift_le n)
  have h1 : 1 ≤ 2 ^ cshift n := Nat.one_le_two_pow
  unfold period Config.maxPeriod
  constructor
  · calc 8 = 8 * 1 := rfl
      _ ≤ _ := Nat.mul_le_mul hb.1 h1
  · calc _ ≤ 112 * 2 ^ 15 := Nat.mul_le_mul hb.2 hp
      _ = 3670016 := rfl

/-- The reload of a trigger, which is not shifted (R188), is at most the period. -/
theorem basePeriod_le_period (n : NoiseChannel) : basePeriod (dcode n) ≤ period n :=
  Nat.le_mul_of_pos_right _ (Nat.two_pow_pos _)

/-- A divider at most the period stays so through the loop of R211. -/
theorem advanceLoop_le (p : Nat) (wide : Bool) (k : Nat) (d : Int) (l : Lfsr) (h : d ≤ p) :
    (advanceLoop p wide k d l).1 ≤ p := by
  induction k generalizing d l with
  | zero => exact h
  | succ k ih =>
    unfold advanceLoop
    split
    · exact ih _ _ (by omega)
    · exact h

/-- NADV keeps the bound of R47 on the divider. -/
theorem advance_div_le (cycles : Nat) (n : NoiseChannel) (h : n.div ≤ period n) :
    (advance cycles n).div ≤ period n :=
  advanceLoop_le _ _ _ _ _ (by omega)

/-- The loop of R211 stops on a positive divider. -/
theorem advanceLoop_pos (p : Nat) (wide : Bool) (k : Nat) (d : Int) (l : Lfsr) (h : 0 < d) :
    advanceLoop p wide k d l = (d, l) := by
  cases k with
  | zero => rfl
  | succ k => simp [advanceLoop, show ¬ d ≤ 0 by omega]

/-- One turn of the loop of R211. -/
theorem advanceLoop_turn (p : Nat) (wide : Bool) (k : Nat) (d : Int) (l : Lfsr) (h : d ≤ 0) :
    advanceLoop p wide (k + 1) d l = advanceLoop p wide k (d + p) (lfsrShift wide l) := by
  simp [advanceLoop, h]

/-- NADV touches the divider and the LFSR alone (R211). -/
theorem advance_frame (cycles : Nat) (n : NoiseChannel) :
    advance cycles n = { n with div := (advance cycles n).div, lfsr := (advance cycles n).lfsr } := rfl

/-- A step of the volume that is taken or discarded stays in 0..15 (R215). -/
theorem stepVolume_le (n : NoiseChannel) (h : n.vol ≤ 15) : stepVolume n ≤ 15 := by
  unfold stepVolume Config.maxVolume
  simp only
  split <;> omega

/-- The DAC check never sets the enabled flag (R46). -/
theorem forceDac_en (n : NoiseChannel) : (forceDac n).en = (n.en && dacOn n) := rfl

/-- `dac_on` as R45 writes it. -/
theorem dacOn_iff (n : NoiseChannel) : dacOn n = true ↔ n.nr1 &&& 0xF8 ≠ 0 := by simp [dacOn]

/-- The trigger clears its own bit in the stored byte and no other (R185). -/
theorem clearTrigger_getLsbD (p : Params) (v : Byte) (i : Nat) :
    (clearTrigger p v).getLsbD i = (v.getLsbD i && decide (i ≠ p.trigBit)) := by
  by_cases h : i < 8
  · by_cases hk : i = p.trigBit
    · simp [clearTrigger, hk]
    · simp [clearTrigger, h, hk]
  · rw [BitVec.getLsbD_of_ge _ _ (by omega), BitVec.getLsbD_of_ge _ _ (by omega)]
    rfl

end Sys2Proof.Machine
end

