-- ==== Sys2Proof/Laws/Operands.lean ====
section
/-! SUPPORT. The storage byte each address form names, as a plain difference where the address is at or above the window's
base (R61, R66), and that it lies inside its array. -/

namespace Sys2Proof.Machine

/-- Subtracting a window's base from an address at or above it does not wrap. -/
theorem toNat_sub_base (a b : Addr) (h : b.toNat ≤ a.toNat) : (a - b).toNat = a.toNat - b.toNat := by
  have := a.isLt
  rw [BitVec.toNat_sub]; omega

theorem vramAt_eq (a : Addr) (h : 0x8000 ≤ a.toNat) : vramAt a = ⟨.vram, a.toNat - 0x8000⟩ :=
  congrArg (Location.mk .vram) (toNat_sub_base a 0x8000 h)

theorem wram0At_eq (a : Addr) (h : 0xC000 ≤ a.toNat) : wram0At a = ⟨.wram0, a.toNat - 0xC000⟩ :=
  congrArg (Location.mk .wram0) (toNat_sub_base a 0xC000 h)

theorem wram1At_eq (a : Addr) (h : 0xD000 ≤ a.toNat) : wram1At a = ⟨.wram1, a.toNat - 0xD000⟩ :=
  congrArg (Location.mk .wram1) (toNat_sub_base a 0xD000 h)

/-- The lower part of the echo region is bank 0 (R66). -/
theorem echoAt_eq_bank0 (a : Addr) (h : 0xE000 ≤ a.toNat) (h' : a.toNat < 0xF000) :
    echoAt a = ⟨.wram0, a.toNat - 0xE000⟩ := by
  rw [echoAt, if_pos h']
  exact congrArg (Location.mk .wram0) (toNat_sub_base a 0xE000 h)

/-- The upper part of the echo region is bank 1 (R66, C2). -/
theorem echoAt_eq_bank1 (a : Addr) (h : 0xF000 ≤ a.toNat) : echoAt a = ⟨.wram1, a.toNat - 0xF000⟩ := by
  rw [echoAt, if_neg (by omega)]
  exact congrArg (Location.mk .wram1) (toNat_sub_base a 0xF000 h)

theorem oamAt_eq (a : Addr) (h : 0xFE00 ≤ a.toNat) : oamAt a = ⟨.oam, a.toNat - 0xFE00⟩ :=
  congrArg (Location.mk .oam) (toNat_sub_base a 0xFE00 h)

theorem hramAt_eq (a : Addr) (h : 0xFF80 ≤ a.toNat) : hramAt a = ⟨.hram, a.toNat - 0xFF80⟩ :=
  congrArg (Location.mk .hram) (toNat_sub_base a 0xFF80 h)

end Sys2Proof.Machine
end

