-- ==== Sys2Proof/Laws/PerInstr.lean ====
section
/-! SUPPORT. Per-instruction laws. AssignedOp: the command word of an operation has one of the `op` values of R92, never a
reserved one (R96). -/

namespace Sys2Proof.Laws

/-- AS operations use 0x00 to 0x08, NC operations 0x10 to 0x17 (R92). -/
def AssignedOp.Statement (i : Instr) : Prop :=
  (opField (encode i)).toNat ≤ 0x08 ∨ 0x10 ≤ (opField (encode i)).toNat ∧ (opField (encode i)).toNat ≤ 0x17

/-- An operation whose word is assembled from an assigned `op` value. -/
theorem AssignedOp.of_word (i : Instr) (op : Byte) (a d : BitVec 16) (h : encode i = word op a d)
    (hop : op.toNat ≤ 0x08 ∨ 0x10 ≤ op.toNat ∧ op.toNat ≤ 0x17) : AssignedOp.Statement i := by
  rwa [AssignedOp.Statement, h, opField_word]

theorem AssignedOp.rdRom (a : Addr) : AssignedOp.Statement (.rdRom a) := AssignedOp.of_word _ _ _ _ rfl (by decide)
theorem AssignedOp.rdVram (a : Addr) : AssignedOp.Statement (.rdVram a) := AssignedOp.of_word _ _ _ _ rfl (by decide)
theorem AssignedOp.rdExtram (a : Addr) : AssignedOp.Statement (.rdExtram a) := AssignedOp.of_word _ _ _ _ rfl (by decide)
theorem AssignedOp.rdWram0 (a : Addr) : AssignedOp.Statement (.rdWram0 a) := AssignedOp.of_word _ _ _ _ rfl (by decide)
theorem AssignedOp.rdWram1 (a : Addr) : AssignedOp.Statement (.rdWram1 a) := AssignedOp.of_word _ _ _ _ rfl (by decide)
theorem AssignedOp.rdEcho (a : Addr) : AssignedOp.Statement (.rdEcho a) := AssignedOp.of_word _ _ _ _ rfl (by decide)
theorem AssignedOp.rdOam (a : Addr) : AssignedOp.Statement (.rdOam a) := AssignedOp.of_word _ _ _ _ rfl (by decide)
theorem AssignedOp.rdUnusable (a : Addr) : AssignedOp.Statement (.rdUnusable a) := AssignedOp.of_word _ _ _ _ rfl (by decide)
theorem AssignedOp.rdLowio (a : Addr) : AssignedOp.Statement (.rdLowio a) := AssignedOp.of_word _ _ _ _ rfl (by decide)
theorem AssignedOp.rdIf (a : Addr) : AssignedOp.Statement (.rdIf a) := AssignedOp.of_word _ _ _ _ rfl (by decide)
theorem AssignedOp.rdSound (a : Addr) : AssignedOp.Statement (.rdSound a) := AssignedOp.of_word _ _ _ _ rfl (by decide)
theorem AssignedOp.rdVideo (a : Addr) : AssignedOp.Statement (.rdVideo a) := AssignedOp.of_word _ _ _ _ rfl (by decide)
theorem AssignedOp.rdKey1 (a : Addr) : AssignedOp.Statement (.rdKey1 a) := AssignedOp.of_word _ _ _ _ rfl (by decide)
theorem AssignedOp.rdIounmapped (a : Addr) : AssignedOp.Statement (.rdIounmapped a) := AssignedOp.of_word _ _ _ _ rfl (by decide)
theorem AssignedOp.rdHram (a : Addr) : AssignedOp.Statement (.rdHram a) := AssignedOp.of_word _ _ _ _ rfl (by decide)
theorem AssignedOp.rdIe (a : Addr) : AssignedOp.Statement (.rdIe a) := AssignedOp.of_word _ _ _ _ rfl (by decide)
theorem AssignedOp.wrRom (a : Addr) (v : Byte) : AssignedOp.Statement (.wrRom a v) := AssignedOp.of_word _ _ _ _ rfl (by decide)
theorem AssignedOp.wrVram (a : Addr) (v : Byte) : AssignedOp.Statement (.wrVram a v) := AssignedOp.of_word _ _ _ _ rfl (by decide)
theorem AssignedOp.wrExtram (a : Addr) (v : Byte) : AssignedOp.Statement (.wrExtram a v) := AssignedOp.of_word _ _ _ _ rfl (by decide)
theorem AssignedOp.wrWram0 (a : Addr) (v : Byte) : AssignedOp.Statement (.wrWram0 a v) := AssignedOp.of_word _ _ _ _ rfl (by decide)
theorem AssignedOp.wrWram1 (a : Addr) (v : Byte) : AssignedOp.Statement (.wrWram1 a v) := AssignedOp.of_word _ _ _ _ rfl (by decide)
theorem AssignedOp.wrEcho (a : Addr) (v : Byte) : AssignedOp.Statement (.wrEcho a v) := AssignedOp.of_word _ _ _ _ rfl (by decide)
theorem AssignedOp.wrOam (a : Addr) (v : Byte) : AssignedOp.Statement (.wrOam a v) := AssignedOp.of_word _ _ _ _ rfl (by decide)
theorem AssignedOp.wrUnusable (a : Addr) (v : Byte) : AssignedOp.Statement (.wrUnusable a v) := AssignedOp.of_word _ _ _ _ rfl (by decide)
theorem AssignedOp.wrLowio (a : Addr) (v : Byte) : AssignedOp.Statement (.wrLowio a v) := AssignedOp.of_word _ _ _ _ rfl (by decide)
theorem AssignedOp.wrIf (a : Addr) (v : Byte) : AssignedOp.Statement (.wrIf a v) := AssignedOp.of_word _ _ _ _ rfl (by decide)
theorem AssignedOp.wrSound (a : Addr) (v : Byte) : AssignedOp.Statement (.wrSound a v) := AssignedOp.of_word _ _ _ _ rfl (by decide)
theorem AssignedOp.wrVideo (a : Addr) (v : Byte) : AssignedOp.Statement (.wrVideo a v) := AssignedOp.of_word _ _ _ _ rfl (by decide)
theorem AssignedOp.wrDma (a : Addr) (v : Byte) : AssignedOp.Statement (.wrDma a v) := AssignedOp.of_word _ _ _ _ rfl (by decide)
theorem AssignedOp.wrKey1 (a : Addr) (v : Byte) : AssignedOp.Statement (.wrKey1 a v) := AssignedOp.of_word _ _ _ _ rfl (by decide)
theorem AssignedOp.wrIounmapped (a : Addr) (v : Byte) : AssignedOp.Statement (.wrIounmapped a v) := AssignedOp.of_word _ _ _ _ rfl (by decide)
theorem AssignedOp.wrHram (a : Addr) (v : Byte) : AssignedOp.Statement (.wrHram a v) := AssignedOp.of_word _ _ _ _ rfl (by decide)
theorem AssignedOp.wrIe (a : Addr) (v : Byte) : AssignedOp.Statement (.wrIe a v) := AssignedOp.of_word _ _ _ _ rfl (by decide)
theorem AssignedOp.peekRom (a : Addr) : AssignedOp.Statement (.peekRom a) := AssignedOp.of_word _ _ _ _ rfl (by decide)
theorem AssignedOp.peekVram (a : Addr) : AssignedOp.Statement (.peekVram a) := AssignedOp.of_word _ _ _ _ rfl (by decide)
theorem AssignedOp.peekExtram (a : Addr) : AssignedOp.Statement (.peekExtram a) := AssignedOp.of_word _ _ _ _ rfl (by decide)
theorem AssignedOp.peekWram0 (a : Addr) : AssignedOp.Statement (.peekWram0 a) := AssignedOp.of_word _ _ _ _ rfl (by decide)
theorem AssignedOp.peekWram1 (a : Addr) : AssignedOp.Statement (.peekWram1 a) := AssignedOp.of_word _ _ _ _ rfl (by decide)
theorem AssignedOp.peekEcho (a : Addr) : AssignedOp.Statement (.peekEcho a) := AssignedOp.of_word _ _ _ _ rfl (by decide)
theorem AssignedOp.peekOam (a : Addr) : AssignedOp.Statement (.peekOam a) := AssignedOp.of_word _ _ _ _ rfl (by decide)
theorem AssignedOp.peekUnusable (a : Addr) : AssignedOp.Statement (.peekUnusable a) := AssignedOp.of_word _ _ _ _ rfl (by decide)
theorem AssignedOp.peekLowio (a : Addr) : AssignedOp.Statement (.peekLowio a) := AssignedOp.of_word _ _ _ _ rfl (by decide)
theorem AssignedOp.peekIf (a : Addr) : AssignedOp.Statement (.peekIf a) := AssignedOp.of_word _ _ _ _ rfl (by decide)
theorem AssignedOp.peekSound (a : Addr) : AssignedOp.Statement (.peekSound a) := AssignedOp.of_word _ _ _ _ rfl (by decide)
theorem AssignedOp.peekVideo (a : Addr) : AssignedOp.Statement (.peekVideo a) := AssignedOp.of_word _ _ _ _ rfl (by decide)
theorem AssignedOp.peekKey1 (a : Addr) : AssignedOp.Statement (.peekKey1 a) := AssignedOp.of_word _ _ _ _ rfl (by decide)
theorem AssignedOp.peekIounmapped (a : Addr) : AssignedOp.Statement (.peekIounmapped a) := AssignedOp.of_word _ _ _ _ rfl (by decide)
theorem AssignedOp.peekHram (a : Addr) : AssignedOp.Statement (.peekHram a) := AssignedOp.of_word _ _ _ _ rfl (by decide)
theorem AssignedOp.peekIe (a : Addr) : AssignedOp.Statement (.peekIe a) := AssignedOp.of_word _ _ _ _ rfl (by decide)
theorem AssignedOp.rd16 (a : Addr) : AssignedOp.Statement (.rd16 a) := AssignedOp.of_word _ _ _ _ rfl (by decide)
theorem AssignedOp.wr16 (a : Addr) (v : Half) : AssignedOp.Statement (.wr16 a v) := AssignedOp.of_word _ _ _ _ rfl (by decide)
theorem AssignedOp.reqint (bit : Nat) : AssignedOp.Statement (.reqint bit) := AssignedOp.of_word _ _ _ _ rfl (by decide)
theorem AssignedOp.reset : AssignedOp.Statement (.reset) := AssignedOp.of_word _ _ _ _ rfl (by decide)
theorem AssignedOp.tick : AssignedOp.Statement (.tick) := AssignedOp.of_word _ _ _ _ rfl (by decide)
theorem AssignedOp.loadcart (cart : BitVec 16) : AssignedOp.Statement (.loadcart cart) := AssignedOp.of_word _ _ _ _ rfl (by decide)
theorem AssignedOp.nwr0 (v : Byte) : AssignedOp.Statement (.nwr0 v) := AssignedOp.of_word _ _ _ _ rfl (by decide)
theorem AssignedOp.nwr1 (v : Byte) : AssignedOp.Statement (.nwr1 v) := AssignedOp.of_word _ _ _ _ rfl (by decide)
theorem AssignedOp.nwr2 (v : Byte) : AssignedOp.Statement (.nwr2 v) := AssignedOp.of_word _ _ _ _ rfl (by decide)
theorem AssignedOp.nwr3 (v : Byte) : AssignedOp.Statement (.nwr3 v) := AssignedOp.of_word _ _ _ _ rfl (by decide)
theorem AssignedOp.nwr3Trig (v : Byte) : AssignedOp.Statement (.nwr3Trig v) := AssignedOp.of_word _ _ _ _ rfl (by decide)
theorem AssignedOp.nrd0 : AssignedOp.Statement (.nrd0) := AssignedOp.of_word _ _ _ _ rfl (by decide)
theorem AssignedOp.nrd1 : AssignedOp.Statement (.nrd1) := AssignedOp.of_word _ _ _ _ rfl (by decide)
theorem AssignedOp.nrd2 : AssignedOp.Statement (.nrd2) := AssignedOp.of_word _ _ _ _ rfl (by decide)
theorem AssignedOp.nrd3 : AssignedOp.Statement (.nrd3) := AssignedOp.of_word _ _ _ _ rfl (by decide)
theorem AssignedOp.nadv (cycles : Nat) : AssignedOp.Statement (.nadv cycles) := AssignedOp.of_word _ _ _ _ rfl (by decide)
theorem AssignedOp.nclklen : AssignedOp.Statement (.nclklen) := AssignedOp.of_word _ _ _ _ rfl (by decide)
theorem AssignedOp.nclkenv : AssignedOp.Statement (.nclkenv) := AssignedOp.of_word _ _ _ _ rfl (by decide)
theorem AssignedOp.nenabled : AssignedOp.Statement (.nenabled) := AssignedOp.of_word _ _ _ _ rfl (by decide)
theorem AssignedOp.nsample : AssignedOp.Statement (.nsample) := AssignedOp.of_word _ _ _ _ rfl (by decide)
theorem AssignedOp.fs (step : BitVec 3) : AssignedOp.Statement (.fs step) := AssignedOp.of_word _ _ _ _ rfl (by decide)

end Sys2Proof.Laws
end

