-- ==== Sys2Proof/Laws/Storage.lean ====
section
/-! SUPPORT. What the storage byte of an address is: inside its array, never the unreachable byte of high RAM, and different
for two consecutive addresses. -/

namespace Sys2Proof.Machine

/-- Every window starts at an even address and every index is counted from there. -/
theorem storageOf_parity (a : Addr) (l : Location) (h : storageOf a = some l) : l.index % 2 = a.toNat % 2 := by
  unfold storageOf at h
  simp only at h
  repeat' split at h
  all_goals cases h
  all_goals simp only; omega

/-- The storage byte of an address lies in its array, and is not byte 0x7F of high RAM (R25, R32). -/
theorem storageOf_bounds (a : Addr) (l : Location) (h : storageOf a = some l) :
    l.index < l.array.size ∧ l ≠ ⟨.hram, 0x7F⟩ := by
  unfold storageOf at h
  simp only at h
  repeat' split at h
  all_goals cases h
  all_goals
    simp only [Backing.size, Config.vramSize, Config.wramSize, Config.oamSize, Config.hramSize, ne_eq, Location.mk.injEq,
      reduceCtorEq, false_and, not_false_iff, and_true, true_and]
    omega

/-- No storage byte below the map's first window; so the address after 0xFFFF has none. -/
theorem storageOf_low (a : Addr) (h : a.toNat < 0x8000) : storageOf a = none := if_pos h

/-- Two consecutive addresses, 0xFFFF and 0x0000 included, never name one storage byte. -/
theorem storageOf_next_ne (a : Addr) (l : Location) (h : storageOf a = some l) : storageOf (a + 1) ≠ some l := by
  intro h'
  by_cases ha : a = 0xFFFF
  · subst ha
    rw [storageOf_low _ (by decide)] at h'
    cases h'
  · have hne : a.toNat ≠ 65535 := fun e => ha (BitVec.eq_of_toNat_eq e)
    have hlt := a.isLt
    have hsum : (a + 1).toNat = a.toNat + 1 := by
      rw [BitVec.toNat_add]
      show (a.toNat + 1) % 65536 = _
      omega
    have h1 := storageOf_parity _ _ h
    have h2 := storageOf_parity _ _ h'
    omega

end Sys2Proof.Machine
end

