-- ==== Sys2Proof/Tests/Slice0.lean ====
section
/-! SUPPORT. The model's own tests: what `wellFormed` refuses, words written out from the spec's encodings, one step of each
kind against the vectors of 95_test_vectors.md, and for every statement with hypotheses a concrete case that meets them. -/

namespace Sys2Proof.Tests

open Sys2Proof.Machine

/-! ## Helpers -/

/-- The next state of an outcome. -/
def next? : Host.Outcome State Fault Refusal → Option State
  | .next s => some s
  | .fault _ => none
  | .refused _ => none

/-- The fault of an outcome. -/
def fault? : Host.Outcome State Fault Refusal → Option Fault
  | .next _ => none
  | .fault f => some f
  | .refused _ => none

/-- The refusal of an outcome. -/
def refusal? : Host.Outcome State Fault Refusal → Option Refusal
  | .next _ => none
  | .fault _ => none
  | .refused r => some r

/-- One step on one command word. -/
def run (w : CommandWord) (s : State) : Host.Outcome State Fault Refusal := step { s with pending := [w] }

/-- The response of one step on one command word. -/
def out? (w : CommandWord) (s : State) : Option Output := (next? (run w s)).map State.out

/-- NoiseChannel after one step on one command word. -/
def noise? (w : CommandWord) (s : State) : Option NoiseChannel := (next? (run w s)).map State.noise

/-- AddressSpace after one step on one command word. -/
def space? (w : CommandWord) (s : State) : Option AddressSpace := (next? (run w s)).map State.space

/-- Power-on with one storage byte set. -/
def holding (l : Location) (v : Byte) : State := State.reset.setByte l v

/-- Power-on with the mapper M(1) attached, its hidden state numbered 5. -/
def withCart : State := State.reset.setMapper (some ⟨1, 5⟩)

/-- Power-on with `nr[1]`, `nr[2]` and the frame step set. -/
def ready (nr1 nr2 : Byte) (step : BitVec 3) : State :=
  { State.reset with noise := { NoiseChannel.reset with nr1 := nr1, nr2 := nr2 }, fsStep := step }

/-- An enabled channel with the given volume and LFSR. -/
def sounding (vol : Nat) (l : Lfsr) : State :=
  { State.reset with noise := { NoiseChannel.reset with nr1 := 0xF0, en := true, vol := vol, len := 64, lfsr := l } }

/-- A channel with length counting enabled. -/
def counting (len : Nat) : State :=
  { State.reset with noise := { NoiseChannel.reset with nr1 := 0xF0, nr3 := 0x40, en := true, len := len } }

/-- A channel with the given envelope register, volume and envelope counter. -/
def swelling (nr1 : Byte) (vol : Nat) (envctr : Int) : State :=
  { State.reset with noise := { NoiseChannel.reset with nr1 := nr1, vol := vol, envctr := envctr } }

/-! ## What wellFormed refuses: addresses just outside each row's region, and operands out of range -/

theorem test_ill_formed_reads : (([.rdRom 0x8000, .rdVram 0x7FFF, .rdVram 0xA000, .rdExtram 0x9FFF, .rdExtram 0xC000,
    .rdWram0 0xBFFF, .rdWram0 0xD000, .rdWram1 0xCFFF, .rdWram1 0xE000, .rdEcho 0xDFFF, .rdEcho 0xFE00, .rdOam 0xFDFF,
    .rdOam 0xFEA0, .rdUnusable 0xFE9F, .rdUnusable 0xFF00, .rdLowio 0xFF03, .rdLowio 0xFF08, .rdIf 0xFF0E, .rdSound 0xFF0F,
    .rdSound 0xFF40, .rdVideo 0xFF3F, .rdVideo 0xFF4C, .rdKey1 0xFF4E, .rdIounmapped 0xFF02, .rdIounmapped 0xFF0F,
    .rdIounmapped 0xFF80, .rdHram 0xFF7F, .rdHram 0xFFFF, .rdIe 0xFFFE] : List Instr).any
      (Instr.wellFormed Params.default)) = false := by decide

theorem test_ill_formed_writes : (([.wrRom 0x8000 1, .wrVram 0x7FFF 1, .wrVram 0xA000 1, .wrExtram 0x9FFF 1,
    .wrExtram 0xC000 1, .wrWram0 0xBFFF 1, .wrWram0 0xD000 1, .wrWram1 0xCFFF 1, .wrWram1 0xE000 1, .wrEcho 0xDFFF 1,
    .wrEcho 0xFE00 1, .wrOam 0xFDFF 1, .wrOam 0xFEA0 1, .wrUnusable 0xFE9F 1, .wrUnusable 0xFF00 1, .wrLowio 0xFF03 1,
    .wrLowio 0xFF08 1, .wrIf 0xFF10 1, .wrSound 0xFF0F 1, .wrSound 0xFF40 1, .wrVideo 0xFF46 1, .wrVideo 0xFF4C 1,
    .wrDma 0xFF45 1, .wrDma 0xFF47 1, .wrKey1 0xFF4C 1, .wrIounmapped 0xFF4D 1, .wrIounmapped 0xFF46 1, .wrHram 0xFF7F 1,
    .wrHram 0xFFFF 1, .wrIe 0xFFFE 1] : List Instr).any (Instr.wellFormed Params.default)) = false := by decide

theorem test_ill_formed_peeks : (([.peekRom 0x8000, .peekVram 0xA000, .peekExtram 0xC000, .peekWram0 0xD000,
    .peekWram1 0xE000, .peekEcho 0xFE00, .peekOam 0xFEA0, .peekUnusable 0xFF00, .peekLowio 0xFF03, .peekIf 0xFF0E,
    .peekSound 0xFF40, .peekVideo 0xFF4C, .peekKey1 0xFF4E, .peekIounmapped 0xFF0F, .peekHram 0xFFFF, .peekIe 0xFFFE]
      : List Instr).any (Instr.wellFormed Params.default)) = false := by decide

theorem test_ill_formed_operands : (([.reqint 65536, .nwr3 0x80, .nwr3Trig 0x7F, .nadv 4294967296] : List Instr).any
    (Instr.wellFormed Params.default)) = false := by decide

/-- With TRIG_BIT 0 the data bit that splits the two rows of NWR 3 is bit 0 (R94). -/
theorem test_ill_formed_other_trigger : Instr.wellFormed { Params.default with trigBit := 0 } (.nwr3 0x01) = false ∧
    Instr.wellFormed { Params.default with trigBit := 0 } (.nwr3Trig 0x80) = false := by decide

/-! ## Words written out from R90 to R94 -/

/-- RD is op 0x00, format B: one word per region. -/
theorem test_decode_rd : [0x0001000000, 0x009FFF0000, 0x00A0000000, 0x00C1230000, 0x00DFFF0000, 0x00EFFF0000, 0x00FE9F0000,
    0x00FEA00000, 0x00FF040000, 0x00FF0F0000, 0x00FF100000, 0x00FF460000, 0x00FF4D0000, 0x00FF7F0000, 0x00FFFE0000,
    0x00FFFF0000].map (decodeTableWord 40) = [some (.rdRom 0x0100), some (.rdVram 0x9FFF), some (.rdExtram 0xA000),
    some (.rdWram0 0xC123), some (.rdWram1 0xDFFF), some (.rdEcho 0xEFFF), some (.rdOam 0xFE9F), some (.rdUnusable 0xFEA0),
    some (.rdLowio 0xFF04), some (.rdIf 0xFF0F), some (.rdSound 0xFF10), some (.rdVideo 0xFF46), some (.rdKey1 0xFF4D),
    some (.rdIounmapped 0xFF7F), some (.rdHram 0xFFFE), some (.rdIe 0xFFFF)] := by decide

/-- WR is op 0x01, format B: one word per destination. -/
theorem test_decode_wr : [0x0120000001, 0x0180000011, 0x01BFFF0013, 0x01C12300AB, 0x01D0000055, 0x01FDFF0099, 0x01FE000010,
    0x01FEFF00FF, 0x01FF000030, 0x01FF0F0005, 0x01FF230080, 0x01FF400091, 0x01FF4600C1, 0x01FF4D0001, 0x01FF7F0012,
    0x01FF800001, 0x01FFFF001F].map (decodeTableWord 40) = [some (.wrRom 0x2000 0x01), some (.wrVram 0x8000 0x11),
    some (.wrExtram 0xBFFF 0x13), some (.wrWram0 0xC123 0xAB), some (.wrWram1 0xD000 0x55), some (.wrEcho 0xFDFF 0x99),
    some (.wrOam 0xFE00 0x10), some (.wrUnusable 0xFEFF 0xFF), some (.wrLowio 0xFF00 0x30), some (.wrIf 0xFF0F 0x05),
    some (.wrSound 0xFF23 0x80), some (.wrVideo 0xFF40 0x91), some (.wrDma 0xFF46 0xC1), some (.wrKey1 0xFF4D 0x01),
    some (.wrIounmapped 0xFF7F 0x12), some (.wrHram 0xFF80 0x01), some (.wrIe 0xFFFF 0x1F)] := by decide

/-- PEEK is op 0x02, format B, with the read dispatch. -/
theorem test_decode_peek : [0x0200000000, 0x0280000000, 0x02BFFF0000, 0x02C0000000, 0x02D0000000, 0x02E1230000, 0x02FE000000,
    0x02FEA00000, 0x02FF040000, 0x02FF0F0000, 0x02FF100000, 0x02FF460000, 0x02FF4D0000, 0x02FF030000, 0x02FF800000,
    0x02FFFF0000].map (decodeTableWord 40) = [some (.peekRom 0x0000), some (.peekVram 0x8000), some (.peekExtram 0xBFFF),
    some (.peekWram0 0xC000), some (.peekWram1 0xD000), some (.peekEcho 0xE123), some (.peekOam 0xFE00),
    some (.peekUnusable 0xFEA0), some (.peekLowio 0xFF04), some (.peekIf 0xFF0F), some (.peekSound 0xFF10),
    some (.peekVideo 0xFF46), some (.peekKey1 0xFF4D), some (.peekIounmapped 0xFF03), some (.peekHram 0xFF80),
    some (.peekIe 0xFFFF)] := by decide

/-- RD16, WR16, REQINT, RESET, TICK, LOADCART: ops 0x03 to 0x08. -/
theorem test_decode_system : [0x03DFFF0000, 0x04FFFEBEEF, 0x0500020000, 0x0600000000, 0x0700000000, 0x0800010000].map
    (decodeTableWord 40) = [some (.rd16 0xDFFF), some (.wr16 0xFFFE 0xBEEF), some (.reqint 2), some .reset, some .tick,
    some (.loadcart 1)] := by decide

/-- NWR and NRD by index, NWR 3 by the data bit TRIG_BIT: ops 0x10 and 0x11. -/
theorem test_decode_registers : [0x100000003F, 0x10000100F3, 0x1000020027, 0x1000030040, 0x10000300C0, 0x1100000000,
    0x1100010000, 0x1100020000, 0x1100030000].map (decodeTableWord 40) = [some (.nwr0 0x3F), some (.nwr1 0xF3),
    some (.nwr2 0x27), some (.nwr3 0x40), some (.nwr3Trig 0xC0), some .nrd0, some .nrd1, some .nrd2, some .nrd3] := by decide

/-- The clock and output ports and FS: ops 0x12 to 0x17; the cycle count of NADV is `A ++ D`. -/
theorem test_decode_clocks : [0x1200380000, 0x1300000000, 0x1400000000, 0x1500000000, 0x1600000000, 0x1700000007].map
    (decodeTableWord 40) = [some (.nadv 3670016), some .nclklen, some .nclkenv, some .nenabled, some .nsample,
    some (.fs 7)] := by decide

/-- R96: reserved `op` values, and NWR and NRD with an index of 4 or more, select no operation. -/
theorem test_decode_rejects : [0x0900000000, 0x0F00000000, 0x1800000000, 0xFF00000000, 0x1100040000, 0x1000FF0000].map
    (decodeTableWord 40) = [none, none, none, none, none, none] := by decide

/-- The fields of one WR word, bit by bit: op 00000001, A 1111111101001101, ignored 00000000, data 00000001. -/
theorem test_decode_bits : decodeTableWord 40 0b0000000111111111010011010000000000000001 = some (.wrKey1 0xFF4D 0x01) := by
  decide

/-- R18: `RD 1C123` is `RD C123`, `WR C000, 1FF` is `WR C000, FF`; R93: an index that does not fit has no word. -/
theorem test_written_lines : (Command.rd 0x1C123).assemble = some 0x00C1230000 ∧
    (Command.wr 0xC000 0x1FF).assemble = some 0x01C00000FF ∧ (Command.nrd 65536).assemble = none ∧
    (Command.nadv 112).assemble = some 0x1200000070 := by decide

/-! ## One step: AddressSpace (V-BUS, V-16, V-SYS) -/

theorem test_rd_vram : out? 0x0080000000 (holding ⟨.vram, 0⟩ 0x3C) = some ⟨.byte 0x3C, false, []⟩ := by decide
theorem test_rd_wram0 : out? 0x00C1230000 (holding ⟨.wram0, 0x123⟩ 0xAB) = some ⟨.byte 0xAB, false, []⟩ := by decide
theorem test_rd_wram1 : out? 0x00DFFF0000 (holding ⟨.wram1, 0xFFF⟩ 0x5A) = some ⟨.byte 0x5A, false, []⟩ := by decide
theorem test_rd_echo_bank0 : out? 0x00EFFF0000 (holding ⟨.wram0, 0xFFF⟩ 0x34) = some ⟨.byte 0x34, false, []⟩ := by decide
theorem test_rd_echo_bank1 : out? 0x00F0000000 (holding ⟨.wram1, 0⟩ 0x44) = some ⟨.byte 0x44, false, []⟩ := by decide
theorem test_rd_oam : out? 0x00FE9F0000 (holding ⟨.oam, 0x9F⟩ 0x11) = some ⟨.byte 0x11, false, []⟩ := by decide
theorem test_rd_hram : out? 0x00FFFE0000 (holding ⟨.hram, 0x7E⟩ 0xEF) = some ⟨.byte 0xEF, false, []⟩ := by decide
theorem test_rd_unusable : out? 0x00FEA00000 (holding ⟨.oam, 0x9F⟩ 0x11) = some ⟨.byte 0x00, false, []⟩ := by decide
theorem test_rd_if : out? 0x00FF0F0000 (State.reset.setIflag 5) = some ⟨.byte 0xE5, false, []⟩ := by decide
theorem test_rd_key1 : out? 0x00FF4D0000 (State.reset.setKey1 1) = some ⟨.byte 0x00, false, []⟩ := by decide
theorem test_rd_ie : out? 0x00FFFF0000 (State.reset.setIe 0xFF) = some ⟨.byte 0xFF, false, []⟩ := by decide
theorem test_rd_unmapped : out? 0x00FF030000 State.reset = some ⟨.byte 0x00, true, [.diag .read 0xFF03]⟩ := by decide
theorem test_wr_vram : space? 0x019FFF0080 State.reset = some { AddressSpace.reset with vram := [(0x1FFF, 0x80)] } := by
  decide
theorem test_wr_echo_bank0 : space? 0x01E12300CD State.reset = some { AddressSpace.reset with wram0 := [(0x123, 0xCD)] } := by
  decide
theorem test_wr_echo_bank1 : space? 0x01FDFF0099 State.reset = some { AddressSpace.reset with wram1 := [(0xDFF, 0x99)] } := by
  decide
theorem test_wr_oam : space? 0x01FE000010 State.reset = some { AddressSpace.reset with oam := [(0, 0x10)] } := by decide
theorem test_wr_hram : space? 0x01FF800001 State.reset = some { AddressSpace.reset with hram := [(0, 0x01)] } := by decide
theorem test_wr_unusable : space? 0x01FEA00077 State.reset = some AddressSpace.reset := by decide
theorem test_wr_if : space? 0x01FF0F00A5 State.reset = some { AddressSpace.reset with iflag := 5 } := by decide
theorem test_wr_key1 : space? 0x01FF4D00FE (State.reset.setKey1 1) = some AddressSpace.reset := by decide
theorem test_wr_ie : space? 0x01FFFF00FF State.reset = some { AddressSpace.reset with ie := 0xFF } := by decide
theorem test_wr_unmapped : out? 0x01FF7F0012 State.reset = some ⟨.none, true, [.diag .write 0xFF7F]⟩ := by decide
/-- A write of 00 unlists the byte: the arrays keep their canonical form. -/
theorem test_wr_zero : space? 0x01C1230000 (holding ⟨.wram0, 0x123⟩ 0xAB) = some AddressSpace.reset := by decide
/-- DMA is called, VIDEO is not. -/
theorem test_wr_dma : out? 0x01FF4600C1 State.reset = some ⟨.none, false, [.call .dma (.write 0xFF46 0xC1)]⟩ := by decide
/-- A read at the DMA address is VIDEO's. -/
theorem test_rd_dma_address : (out? 0x00FF460000 State.reset).map Output.events =
    some [.call .video (.read 0xFF46)] := by decide
theorem test_wr_lowio : (out? 0x01FF000030 State.reset).map Output.events = some [.call .joypad (.write 0xFF00 0x30)] := by
  decide
theorem test_rd_lowio : (out? 0x00FF020000 State.reset).map Output.events = some [.call .serial (.read 0xFF02)] := by decide
theorem test_wr_sound : (out? 0x01FF3F0009 State.reset).map Output.events = some [.call .audio (.write 0xFF3F 0x09)] := by
  decide
theorem test_wr_rom : (out? 0x017FFF0012 withCart).map Output.events =
    some [.call (.mapper 1) (.write 0x7FFF 0x12)] := by decide
theorem test_rd_extram : (out? 0x00A0000000 withCart).map Output.events = some [.call (.mapper 1) (.read 0xA000)] := by
  decide
theorem test_no_mapper : fault? (run 0x0000000000 State.reset) = some (.missingBackend 0x0000) ∧
    fault? (run 0x01A0000001 State.reset) = some (.missingBackend 0xA000) ∧
    fault? (run 0x02BFFF0000 State.reset) = some (.missingBackend 0xBFFF) := by decide
theorem test_peek_echo : out? 0x02E1230000 (holding ⟨.wram0, 0x123⟩ 0xAB) = some ⟨.byte 0xAB, false, []⟩ := by decide
theorem test_peek_unmapped : out? 0x02FF030000 State.reset = some ⟨.byte 0x00, true, [.diag .read 0xFF03]⟩ := by decide
/-- A PEEK leaves the timer where it was, and asks it with `peek`. -/
theorem test_peek_timer : (next? (run 0x02FF040000 State.reset)).map State.ports = some State.reset.ports ∧
    (out? 0x02FF040000 State.reset).map Output.events = some [.call .timer (.peek 0xFF04)] := by decide
theorem test_wr16_straddles : space? 0x04DFFFBEEF State.reset =
    some { AddressSpace.reset with wram0 := [(0, 0xBE)], wram1 := [(0xFFF, 0xEF)] } := by decide
theorem test_wr16_unmapped_then_if : out? 0x04FF0EFFFF State.reset = some ⟨.none, true, [.diag .write 0xFF0E]⟩ ∧
    space? 0x04FF0EFFFF State.reset = some { AddressSpace.reset with iflag := 0x1F } := by decide
theorem test_rd16 : out? 0x03FE9F0000 (holding ⟨.oam, 0x9F⟩ 0x88) = some ⟨.half 0x0088, false, []⟩ := by decide
/-- The second address of a 16-bit access wraps to 0x0000 (R75). -/
theorem test_rd16_wraps : fault? (run 0x03FFFF0000 State.reset) = some (.missingBackend 0x0000) := by decide
theorem test_reqint : space? 0x0500020000 (State.reset.setIflag 1) = some { AddressSpace.reset with iflag := 5 } ∧
    space? 0x05FFFF0000 (State.reset.setIflag 1) = some { AddressSpace.reset with iflag := 1 } := by decide
theorem test_reset : space? 0x0612345678 (withCart.setByte ⟨.wram0, 0⟩ 0xFF) = some AddressSpace.reset ∧
    (out? 0x0600000000 withCart).map Output.events =
      some [.call .timer .reset, .call .joypad .reset, .call .serial .reset, .call .dma .reset] := by decide
theorem test_tick : next? (run 0x0700000000 withCart) = some withCart := by decide
theorem test_loadcart_first : (out? 0x0800010000 State.reset).map Output.events = some [] ∧
    (space? 0x0800010000 State.reset).map (fun p => p.mapper.map MapperRef.cart) = some (some 1) := by decide
theorem test_loadcart_again : (out? 0x0800020000 withCart).map Output.events = some [.call (.mapper 1) .saveRam] := by decide
theorem test_loadcart_rejected :
    refusal? (run 0x0800070000 { State.reset with rejectedCarts := [7] }) = some (.cartRejected 7) := by decide

/-! ## One step: NoiseChannel (V-NREG, V-LFSR, V-NADV, V-LEN, V-ENV, V-OUT) -/

theorem test_nwr0 : noise? 0x100000003F State.reset = some { NoiseChannel.reset with nr0 := 0x3F } := by decide
theorem test_nwr0_loads : noise? 0x100000003F { State.reset with params := { Params.default with lenLoadOnReg0 := true } } =
    some { NoiseChannel.reset with nr0 := 0x3F, len := 1 } := by decide
theorem test_nwr1_dac_off : (noise? 0x1000010007 (sounding 8 1)).map NoiseChannel.en = some false ∧
    (noise? 0x1000010008 (sounding 8 1)).map NoiseChannel.en = some true := by decide
theorem test_nwr2 : noise? 0x10000200A5 State.reset = some { NoiseChannel.reset with nr2 := 0xA5 } := by decide
theorem test_nwr3 : noise? 0x1000030040 State.reset = some { NoiseChannel.reset with nr3 := 0x40 } := by decide
theorem test_trigger_step1 : noise? 0x10000300C0 (ready 0x80 0x00 1) = some { NoiseChannel.reset with
    nr1 := 0x80, nr3 := 0x40, en := true, vol := 8, envctr := 8, len := 63, div := 8, lfsr := 0x7FFF } := by decide
theorem test_trigger_step7 : noise? 0x1000030080 (ready 0x08 0x27 7) = some { NoiseChannel.reset with
    nr1 := 0x08, nr2 := 0x27, en := true, vol := 0, envctr := 9, len := 63, div := 112, lfsr := 0x7FFF } := by decide
theorem test_trigger_dac_off : noise? 0x1000030080 (ready 0x07 0x00 0) = some { NoiseChannel.reset with
    nr1 := 0x07, vol := 0, envctr := 7, len := 64, div := 8, lfsr := 0x7FFF } := by decide
theorem test_nrd : [0x1100000000, 0x1100010000, 0x1100020000, 0x1100030000].map (out? · State.reset) =
    [some ⟨.byte 0xFF, false, []⟩, some ⟨.byte 0x00, false, []⟩, some ⟨.byte 0x00, false, []⟩,
      some ⟨.byte 0xBF, false, []⟩] := by decide
theorem test_nrd3_length_enabled : out? 0x1100030000 (counting 1) = some ⟨.byte 0xFF, false, []⟩ := by decide
theorem test_invalid_index : fault? (run 0x1100040000 State.reset) = some (.invalidRegisterIndex 4) ∧
    fault? (run 0x1000FF0000 State.reset) = some (.invalidRegisterIndex 0xFF) := by decide
theorem test_shift_long : [0x7FFF, 0x0000, 0x0001, 0x0002, 0x0003, 0x0040, 0x0081, 0x00C1, 0x4000, 0x3FBF].map
    (lfsrShift false) = [0x3FFF, 0x0000, 0x4000, 0x4001, 0x0001, 0x0020, 0x4040, 0x4060, 0x2000, 0x1FDF] := by decide
theorem test_shift_short : [0x7FFF, 0x0000, 0x0001, 0x0002, 0x0003, 0x0040, 0x0081, 0x00C1, 0x4000, 0x3FBF].map
    (lfsrShift true) = [0x3FBF, 0x0000, 0x4040, 0x4041, 0x0001, 0x0020, 0x4040, 0x4060, 0x2000, 0x1F9F] := by decide
/-- `nr[2]` 00, `div` 8, LFSR 3FFF: NADV 100 shifts 12 times and leaves LFSR 0003 and `div` 4. -/
theorem test_nadv : noise? 0x1200000064 { State.reset with noise := { NoiseChannel.reset with div := 8, lfsr := 0x3FFF } } =
    some { NoiseChannel.reset with div := 4, lfsr := 0x0003 } := by decide
/-- `nr[2]` written to 00 while `div` is 112 (a trigger with divisor code 7): R183 leaves `div`, and R211's final divider with no
shift is 112 - 1, above `P` = 8 (log 14). -/
theorem test_nadv_after_shorter_period :
    noise? 0x1000020000 { State.reset with noise := { NoiseChannel.reset with nr2 := 0x07, div := 112, lfsr := 0x7FFF } } =
      some { NoiseChannel.reset with div := 112, lfsr := 0x7FFF } ∧
    noise? 0x1200000001 { State.reset with noise := { NoiseChannel.reset with div := 112, lfsr := 0x7FFF } } =
      some { NoiseChannel.reset with div := 111, lfsr := 0x7FFF } := by decide

/-- Power-on, NADV 0: one reload and one shift of the all-zero register. -/
theorem test_nadv_zero : noise? 0x1200000000 State.reset = some { NoiseChannel.reset with div := 8 } := by decide
theorem test_nclklen : noise? 0x1300000000 (counting 1) = some { (counting 1).noise with len := 0, en := false } ∧
    noise? 0x1300000000 (counting 63) = some { (counting 63).noise with len := 62 } := by decide
theorem test_nclkenv : noise? 0x1400000000 (swelling 0xF3 15 1) = some { (swelling 0xF3 15 1).noise with vol := 14, envctr := 3 } ∧
    noise? 0x1400000000 State.reset = some { NoiseChannel.reset with envctr := 8 } := by decide
theorem test_nclkenv_discards : noise? 0x1400000000 (swelling 0xF9 15 1) = some (swelling 0xF9 15 1).noise ∧
    noise? 0x1400000000 (swelling 0x11 0 1) = some (swelling 0x11 0 1).noise := by decide
theorem test_nenabled : out? 0x1500000000 (sounding 15 0x4000) = some ⟨.flag true, false, []⟩ := by decide
theorem test_nsample : out? 0x1600000000 (sounding 15 0x4000) = some ⟨.sample 15, false, []⟩ ∧
    out? 0x1600000000 (sounding 15 0x3FFF) = some ⟨.sample 0, false, []⟩ := by decide
theorem test_fs : (next? (run 0x1700000007 State.reset)).map State.fsStep = some 7 := by decide

/-! ## The step and the host's entry -/

theorem test_first_instruction : ((next? (step (State.reset.withFetchWord 40 0x01C12300AB))).map State.space) =
    some { AddressSpace.reset with wram0 := [(0x123, 0xAB)] } := by decide
theorem test_reserved : [0x0900000000, 0x0F00000000, 0x1800000000, 0xFF00000000].map (fun w => refusal? (run w State.reset)) =
    [some (.reservedOp 0x09), some (.reservedOp 0x0F), some (.reservedOp 0x18), some (.reservedOp 0xFF)] := by decide
theorem test_default_parameters_legal : Params.default.wf = true := by decide

/-! ## Witnesses: for each statement with hypotheses, cases that meet them, at the boundaries of every clause -/

/-- DecodeOfEncodeIsTheOperation: a well-formed operation of every row, at a boundary of its row where it has one. -/
theorem witness_DecodeOfEncodeIsTheOperation : ([.rdRom 0x7FFF, .rdVram 0x8000, .rdExtram 0xBFFF, .rdWram0 0xCFFF,
    .rdWram1 0xD000, .rdEcho 0xFDFF, .rdOam 0xFE9F, .rdUnusable 0xFEFF, .rdLowio 0xFF07, .rdIf 0xFF0F, .rdSound 0xFF3F,
    .rdVideo 0xFF4B, .rdKey1 0xFF4D, .rdIounmapped 0xFF7F, .rdHram 0xFFFE, .rdIe 0xFFFF, .wrRom 0 1, .wrVram 0x9FFF 1,
    .wrExtram 0xA000 1, .wrWram0 0xC000 1, .wrWram1 0xDFFF 1, .wrEcho 0xE000 1, .wrOam 0xFE00 1, .wrUnusable 0xFEA0 1,
    .wrLowio 0xFF00 1, .wrIf 0xFF0F 1, .wrSound 0xFF10 1, .wrVideo 0xFF47 1, .wrDma 0xFF46 1, .wrKey1 0xFF4D 1,
    .wrIounmapped 0xFF03 1, .wrHram 0xFF80 1, .wrIe 0xFFFF 1, .peekRom 0, .peekVram 0x9FFF, .peekExtram 0xA000,
    .peekWram0 0xC000, .peekWram1 0xDFFF, .peekEcho 0xE000, .peekOam 0xFE00, .peekUnusable 0xFEA0, .peekLowio 0xFF04,
    .peekIf 0xFF0F, .peekSound 0xFF10, .peekVideo 0xFF46, .peekKey1 0xFF4D, .peekIounmapped 0xFF4C, .peekHram 0xFF80,
    .peekIe 0xFFFF, .rd16 0xFFFF, .wr16 0xFFFF 0xFFFF, .reqint 65535, .reset, .tick, .loadcart 0xFFFF, .nwr0 0xFF, .nwr1 0xFF,
    .nwr2 0xFF, .nwr3 0x7F, .nwr3Trig 0x80, .nrd0, .nrd1, .nrd2, .nrd3, .nadv 4294967295, .nclklen, .nclkenv, .nenabled,
    .nsample, .fs 7] : List Instr).all (Instr.wellFormed Params.default) = true := by decide

theorem witness_DecodedOperationsAreWellFormed : decode Params.default 0x00FF040000 = .ok (.rdLowio 0xFF04) ∧
    decode Params.default 0x10000300C0 = .ok (.nwr3Trig 0xC0) ∧ decode Params.default 0x12FFFFFFFF = .ok (.nadv 4294967295) := by
  decide

theorem witness_UnusedFieldsAreIgnored :
    (opField 0x0612345678 = opField 0x0600000000 ∧ (opField 0x0612345678).toNat ∈ [0x06, 0x07, 0x13, 0x14, 0x15, 0x16]) ∧
    (opField 0x00C123FFFF = opField 0x00C1230000 ∧ (opField 0x00C123FFFF).toNat ∈ [0x00, 0x02, 0x03, 0x05, 0x08, 0x11] ∧
      aField 0x00C123FFFF = aField 0x00C1230000) ∧
    (opField 0x01C000FF12 = opField 0x01C0000012 ∧ (opField 0x01C000FF12).toNat ∈ [0x01, 0x10] ∧
      aField 0x01C000FF12 = aField 0x01C0000012 ∧ dataField 0x01C000FF12 = dataField 0x01C0000012) ∧
    (opField 0x17FFFFFFFF = opField 0x1700000007 ∧ (opField 0x17FFFFFFFF).toNat = 0x17 ∧
      stepField 0x17FFFFFFFF = stepField 0x1700000007) := by decide

theorem witness_StepRunsTheDecodedOperation : (State.reset.withFetchWord 40 0x00C1230000).pending = 0x00C1230000 :: [] ∧
    decode (State.reset.withFetchWord 40 0x00C1230000).params 0x00C1230000 = .ok (.rdWram0 0xC123) := by decide

theorem witness_NothingIssuedHoldsTheState : State.reset.pending = [] := by decide

/-- The least index that is invalid, and the largest. -/
theorem witness_InvalidRegisterIndexFaults :
    ((State.reset.withFetchWord 40 0x1000040000).pending = 0x1000040000 :: [] ∧ (opField 0x1000040000).toNat = 0x10 ∧
      4 ≤ (aField 0x1000040000).toNat) ∧
    ((State.reset.withFetchWord 40 0x11FFFF0000).pending = 0x11FFFF0000 :: [] ∧ (opField 0x11FFFF0000).toNat = 0x11 ∧
      4 ≤ (aField 0x11FFFF0000).toNat) := by decide

theorem witness_ReservedOpcodesAreRefused : (State.reset.withFetchWord 40 0x0900000000).pending = 0x0900000000 :: [] ∧
    0x09 ≤ (opField 0x0900000000).toNat ∧ (opField 0x0F00000000).toNat ≤ 0x0F ∧ 0x18 ≤ (opField 0x1800000000).toNat ∧
    0x18 ≤ (opField 0xFF00000000).toNat := by decide

/-- The first and the last address of each clause of ReadsOfArraysReturnTheStoredByte and WritesToArraysStoreOneByte. -/
theorem witness_ReadsOfArraysReturnTheStoredByte : ([(0x8000, 0xA000, 0x8000), (0x8000, 0xA000, 0x9FFF),
    (0xC000, 0xD000, 0xC000), (0xC000, 0xD000, 0xCFFF), (0xD000, 0xE000, 0xD000), (0xD000, 0xE000, 0xDFFF),
    (0xE000, 0xF000, 0xE000), (0xE000, 0xF000, 0xEFFF), (0xF000, 0xFE00, 0xF000), (0xF000, 0xFE00, 0xFDFF),
    (0xFE00, 0xFEA0, 0xFE00), (0xFE00, 0xFEA0, 0xFE9F), (0xFF80, 0xFFFF, 0xFF80), (0xFF80, 0xFFFF, 0xFFFE)] :
      List (Nat × Nat × Addr)).all
    (fun c => decide (c.1 ≤ c.2.2.toNat) && decide (c.2.2.toNat < c.2.1)) = true := by decide

/-- What the clauses of WritesToArraysStoreOneByte claim, at the last index of each array that a window reaches. -/
theorem witness_WritesToArraysStoreOneByte : 0xFFFE < 0xFFFF ∧ 0xFF80 ≤ (0xFFFE : Addr).toNat ∧
    (next? (exec (.wrHram 0xFFFE 0x89) State.reset)).map (fun t => t.byteAt ⟨.hram, 0xFFFE - 0xFF80⟩) = some 0x89 ∧
    (next? (exec (.wrEcho 0xFDFF 0x56) State.reset)).map (fun t => t.byteAt ⟨.wram1, 0xFDFF - 0xF000⟩) = some 0x56 := by
  decide

/-- The three handlers of the default registry, with the first and the last address of its range. -/
theorem witness_ReadsOfCollaboratorsAreForwarded : 0xFF00 ≤ (0xFF00 : Addr).toNat ∧ (0xFF07 : Addr).toNat < 0xFF08 ∧
    State.reset.params.lowIoMap.toList.getD ((0xFF00 : Addr).toNat - 0xFF00) none = some .joypad ∧
    State.reset.params.lowIoMap.toList.getD ((0xFF02 : Addr).toNat - 0xFF00) none = some .serial ∧
    State.reset.params.lowIoMap.toList.getD ((0xFF07 : Addr).toNat - 0xFF00) none = some .timer := by decide

/-- WritesToCollaboratorsAreForwarded and PeekOfCollaboratorsMovesNothing have the hypotheses of the reads. -/
theorem witness_WritesToCollaboratorsAreForwarded : 0xFF00 ≤ (0xFF01 : Addr).toNat ∧ (0xFF01 : Addr).toNat < 0xFF08 ∧
    withCart.params.lowIoMap.toList.getD ((0xFF00 : Addr).toNat - 0xFF00) none = some .joypad ∧
    withCart.params.lowIoMap.toList.getD ((0xFF01 : Addr).toNat - 0xFF00) none = some .serial ∧
    withCart.params.lowIoMap.toList.getD ((0xFF04 : Addr).toNat - 0xFF00) none = some .timer := by decide

theorem witness_PeekOfCollaboratorsMovesNothing : 0xFF00 ≤ (0xFF05 : Addr).toNat ∧ (0xFF05 : Addr).toNat < 0xFF08 ∧
    withCart.params.lowIoMap.toList.getD ((0xFF00 : Addr).toNat - 0xFF00) none = some .joypad ∧
    withCart.params.lowIoMap.toList.getD ((0xFF02 : Addr).toNat - 0xFF00) none = some .serial ∧
    withCart.params.lowIoMap.toList.getD ((0xFF05 : Addr).toNat - 0xFF00) none = some .timer := by decide

theorem witness_MapperAccessesAreForwarded : withCart.space.mapper = some ⟨1, 5⟩ := by decide

/-- No mapper at power-on; a first byte in either window, and a second byte that straddles into one or wraps to one. -/
theorem witness_MapperWindowWithoutMapperFaults : State.reset.space.mapper = none ∧ inMapperWindow 0x0000 = true ∧
    inMapperWindow 0x7FFF = true ∧ inMapperWindow 0xA000 = true ∧ inMapperWindow 0xBFFF = true ∧
    (inMapperWindow 0x9FFF = false ∧ inMapperWindow (0x9FFF + 1) = true) ∧
    (inMapperWindow 0xFFFF = false ∧ inMapperWindow (0xFFFF + 1) = true) := by decide

/-- The default DMA address, and the first and the last address of the video range. -/
theorem witness_DmaAddressIsDmaOnWritesOnly : ([0xFF46, 0xFF40, 0xFF4B] : List Addr).all (fun a =>
    let p := { Params.default with dmaAddr := a }
    decide (0xFF40 ≤ p.dmaAddr.toNat) && decide (p.dmaAddr.toNat < 0xFF4C) && decide (p.dmaAddr ≠ p.ifAddr) &&
      decide (p.dmaAddr ≠ p.key1Addr)) = true := by decide

theorem witness_EchoMirrorsWorkingRam : ([0xE000, 0xEFFF, 0xF000, 0xFDFF] : List Addr).all (fun a =>
    decide (0xE000 ≤ a.toNat) && decide (a.toNat < 0xFE00)) = true := by decide

theorem witness_RamReadsBackWhatWasWritten : ([0x8000, 0x9FFF, 0xC000, 0xCFFF, 0xD000, 0xDFFF, 0xE000, 0xFDFF, 0xFE00,
    0xFE9F, 0xFF80, 0xFFFE, 0xFFFF] : List Addr).all ramBacked = true := by decide

/-- The default address, and the first and the last address of the I/O block. -/
theorem witness_InterruptFlagReadsBackMasked : ([0xFF0F, 0xFF00, 0xFF7F] : List Addr).all (fun a =>
    let s := { State.reset with params := { Params.default with ifAddr := a } }
    decide (0xFF00 ≤ s.params.ifAddr.toNat) && decide (s.params.ifAddr.toNat < 0xFF80)) = true := by decide

/-- The first and the last pair of the eleven. -/
theorem witness_PeekOfOwnedDestinationsIsTheRead (a : Addr) :
    ([(.peekVram a, .rdVram a), (.peekIe a, .rdIe a)] : List (Instr × Instr)) ⊆
      [(Instr.peekVram a, Instr.rdVram a), (.peekWram0 a, .rdWram0 a), (.peekWram1 a, .rdWram1 a),
        (.peekEcho a, .rdEcho a), (.peekOam a, .rdOam a), (.peekUnusable a, .rdUnusable a), (.peekIf a, .rdIf a),
        (.peekKey1 a, .rdKey1 a), (.peekIounmapped a, .rdIounmapped a), (.peekHram a, .rdHram a), (.peekIe a, .rdIe a)] := by
  simp

theorem witness_PeekLeavesNoTrace : exec (peekInstr .wram0 0xC000) State.reset =
    .next { State.reset with out := ⟨.byte 0x00, false, []⟩ } := rfl

/-- Both addresses readable; the second in a window without mapper; the first in one. -/
theorem witness_Rd16IsTwoReads :
    (∃ s1 s2, exec (readInstr (decodeRead State.reset.params 0xC000) 0xC000) State.reset = .next s1 ∧
      s1.out.datum = .byte 0x00 ∧ exec (readInstr (decodeRead State.reset.params (0xC000 + 1)) (0xC000 + 1)) s1 = .next s2 ∧
      s2.out.datum = .byte 0x00) ∧
    (∃ s1, exec (readInstr (decodeRead State.reset.params 0xFFFF) 0xFFFF) State.reset = .next s1 ∧
      exec (readInstr (decodeRead State.reset.params (0xFFFF + 1)) (0xFFFF + 1)) s1 = .fault (.missingBackend 0x0000)) ∧
    exec (readInstr (decodeRead State.reset.params 0x7FFF) 0x7FFF) State.reset = .fault (.missingBackend 0x7FFF) :=
  ⟨⟨_, _, rfl, rfl, rfl, rfl⟩, ⟨_, rfl, rfl⟩, rfl⟩

theorem witness_Wr16IsTwoWrites :
    (∃ s1 s2, exec (writeInstr (decodeWrite State.reset.params 0xFF0E) 0xFF0E 0xFF) State.reset = .next s1 ∧
      exec (writeInstr (decodeWrite State.reset.params (0xFF0E + 1)) (0xFF0E + 1) 0xFF) s1 = .next s2) ∧
    (∃ s1, exec (writeInstr (decodeWrite State.reset.params 0x9FFF) 0x9FFF 0x5A) State.reset = .next s1 ∧
      exec (writeInstr (decodeWrite State.reset.params (0x9FFF + 1)) (0x9FFF + 1) 0xA5) s1 =
        .fault (.missingBackend 0xA000)) ∧
    exec (writeInstr (decodeWrite State.reset.params 0xBFFF) 0xBFFF 0x01) State.reset = .fault (.missingBackend 0xBFFF) :=
  ⟨⟨_, _, rfl, rfl⟩, ⟨_, rfl, rfl⟩, rfl⟩

/-- Power-on at a pair that straddles two regions, and with a mapper at the pair that wraps to 0x0000. -/
theorem witness_HalfAccessesComplete : (backed State.reset 0xDFFF = true ∧ backed State.reset (0xDFFF + 1) = true ∧
    storageOf 0xDFFF = some ⟨.wram1, 0xFFF⟩ ∧ storageOf (0xDFFF + 1) = some ⟨.wram0, 0⟩) ∧
    (backed withCart 0xFFFF = true ∧ backed withCart (0xFFFF + 1) = true ∧ storageOf (0xFFFF + 1) = none) ∧
    ((0xFFFD : Addr) ≠ 0xFFFF ∧ (0xFFFD : Addr) + 1 ≠ 0xFFFF ∧
      decodeWrite Params.default 0xFF0D ≠ .region .ifReg ∧ decodeWrite Params.default (0xFF0D + 1) ≠ .region .ifReg ∧
      decodeWrite Params.default 0xFF4E ≠ .region .key1 ∧ decodeWrite Params.default (0xFF4E + 1) ≠ .region .key1) := by
  decide

theorem witness_HalfRoundTrip : ([0xC000, 0xCFFF, 0xDFFF, 0xFDFF, 0xFFFE] : List Addr).all (fun a =>
    ramBacked a && ramBacked (a + 1)) = true := by decide

theorem witness_LoadcartAttachesTheMapper : (1 : BitVec 16) ∉ State.reset.rejectedCarts ∧ State.reset.space.mapper = none ∧
    (2 : BitVec 16) ∉ withCart.rejectedCarts ∧ withCart.space.mapper = some ⟨1, 5⟩ := by decide

theorem witness_LoadcartOfARejectedSelectorIsRefused :
    (7 : BitVec 16) ∈ ({ State.reset with rejectedCarts := [7] } : State).rejectedCarts := by decide

/-- Both values of LEN_LOAD_ON_REG0, and on either side of the DAC test. -/
theorem witness_NoiseRegisterWritesStore : State.reset.params.lenLoadOnReg0 = false ∧
    ({ State.reset with params := { Params.default with lenLoadOnReg0 := true } } : State).params.lenLoadOnReg0 = true ∧
    (0x07 : Byte) &&& 0xF8 = 0 ∧ (0x08 : Byte) &&& 0xF8 ≠ 0 := by decide

/-- A counter that runs; a counter of 0 on a step that clocks length and on one that does not. -/
theorem witness_TriggerSetsTheChannel : (counting 1).noise.len ≠ 0 ∧
    ((ready 0x80 0 6).noise.len = 0 ∧ (ready 0x80 0 6).fsStep ∈ (ready 0x80 0 6).params.lengthSteps) ∧
    ((ready 0x80 0 7).noise.len = 0 ∧ (ready 0x80 0 7).fsStep ∉ (ready 0x80 0 7).params.lengthSteps) ∧
    (ready 0x08 0 7).noise.nr1 &&& 0xF8 ≠ 0 := by decide

theorem witness_LfsrShiftFeedsBack : 14 < 15 ∧ 0 < 15 := by decide

theorem witness_ClockLengthCountsDown : State.reset.noise.nr3.getLsbD 6 = false ∧ State.reset.noise.len = 0 ∧
    ((counting 2).noise.nr3.getLsbD 6 = true ∧ 1 < (counting 2).noise.len) ∧
    ((counting 1).noise.nr3.getLsbD 6 = true ∧ (counting 1).noise.len = 1) := by decide

/-- Not due; due without a period; a step up to 15; a step down to 0; the discarded steps at 15 and at 0. -/
theorem witness_ClockEnvelopeStepsTheVolume : 1 < (swelling 0xF3 15 2).noise.envctr ∧
    ((swelling 0x08 3 1).noise.envctr ≤ 1 ∧ (swelling 0x08 3 1).noise.nr1.toNat % 8 = 0) ∧
    ((swelling 0x09 14 1).noise.envctr ≤ 1 ∧ (swelling 0x09 14 1).noise.nr1.toNat % 8 ≠ 0 ∧
      (swelling 0x09 14 1).noise.nr1.getLsbD 3 = true ∧ (swelling 0x09 14 1).noise.vol < 15) ∧
    ((swelling 0x11 1 0).noise.envctr ≤ 1 ∧ (swelling 0x11 1 0).noise.nr1.toNat % 8 ≠ 0 ∧
      (swelling 0x11 1 0).noise.nr1.getLsbD 3 = false ∧ 0 < (swelling 0x11 1 0).noise.vol ∧
      (swelling 0x11 1 0).noise.vol ≤ 16) ∧
    ((swelling 0xF9 15 1).noise.envctr ≤ 1 ∧ (swelling 0xF9 15 1).noise.nr1.toNat % 8 ≠ 0 ∧
      (swelling 0xF9 15 1).noise.nr1.getLsbD 3 = true ∧ 15 ≤ (swelling 0xF9 15 1).noise.vol) ∧
    ((swelling 0x11 0 1).noise.envctr ≤ 1 ∧ (swelling 0x11 0 1).noise.nr1.toNat % 8 ≠ 0 ∧
      (swelling 0x11 0 1).noise.nr1.getLsbD 3 = false ∧ (swelling 0x11 0 1).noise.vol = 0) := by decide

theorem witness_OutputsAndTheFrameStep : State.reset.noise.en = false ∧
    ((sounding 15 0x4000).noise.en = true ∧ (sounding 15 0x4000).noise.lfsr.getLsbD 0 = false) ∧
    ((sounding 15 0x3FFF).noise.en = true ∧ (sounding 15 0x3FFF).noise.lfsr.getLsbD 0 = true) := by decide

/-- Power-on itself, and a RESET after a store. -/
theorem witness_AddressSpaceAtPowerOnAndAfterReset : State.reset = State.reset ∧
    ∃ s t, s.byteAt ⟨.hram, 0⟩ = 0x89 ∧ exec .reset s = .next t :=
  ⟨rfl, State.reset.setByte ⟨.hram, 0⟩ 0x89, _, by decide, rfl⟩

/-- A store steps from power-on, which meets the invariant. -/
theorem witness_StepKeepsMemoryCanonical : MemoryInv (State.reset.withFetchWord 40 0x01FFFE0089) ∧
    ∃ t, step (State.reset.withFetchWord 40 0x01FFFE0089) = .next t :=
  ⟨⟨by decide, by decide⟩, _, rfl⟩

/-- A trigger steps from power-on, which meets the invariant and the bound on the divider, and leaves `nr[2]`. -/
theorem witness_StepKeepsTheNoiseInvariant :
    NoiseInv (State.reset.withFetchWord 40 0x10000300C0).params (State.reset.withFetchWord 40 0x10000300C0).noise ∧
    ∃ t, step (State.reset.withFetchWord 40 0x10000300C0) = .next t ∧ t.noise.nr2 = State.reset.noise.nr2 ∧
      State.reset.noise.div ≤ period State.reset.noise :=
  ⟨by constructor <;> decide, _, rfl, by decide, by decide⟩

/-- An AddressSpace operation that completes, one that faults, one that is refused; and a NoiseChannel operation. -/
theorem witness_ComponentsShareNoState : ((opField (encode (.wrIe 0xFFFF 1))).toNat < 0x10 ∧
      ∃ t, exec (.wrIe 0xFFFF 1) State.reset = .next t) ∧
    ((opField (encode (.rdRom 0))).toNat < 0x10 ∧ exec (.rdRom 0) State.reset = .fault (.missingBackend 0)) ∧
    ((opField (encode (.loadcart 7))).toNat < 0x10 ∧
      exec (.loadcart 7) { State.reset with rejectedCarts := [7] } = .refused (.cartRejected 7)) ∧
    0x10 ≤ (opField (encode (.nwr0 0))).toNat :=
  ⟨⟨by decide, _, rfl⟩, ⟨by decide, rfl⟩, ⟨by decide, rfl⟩, by decide⟩

/-- A command word with each fatal cause, and the second half of a 16-bit access; and one with none. -/
theorem witness_StepFaultsExactlyByTheCauseTable :
    (State.reset.withFetchWord 40 0x1100040000).pending = 0x1100040000 :: [] ∧
    causeOf State.reset 0x1100040000 = some (.invalidRegisterIndex 4) ∧
    causeOf State.reset 0x02A0000000 = some (.missingBackend 0xA000) ∧
    causeOf State.reset 0x03FFFF0000 = some (.missingBackend 0x0000) ∧
    causeOf withCart 0x03FFFF0000 = none ∧ causeOf State.reset 0x0080000000 = none := by decide

theorem witness_EveryOtherCommandCompletes :
    (State.reset.withFetchWord 40 0x0700000000).pending = 0x0700000000 :: [] ∧
    causeOf (State.reset.withFetchWord 40 0x0700000000) 0x0700000000 = none ∧
    refusalOf (State.reset.withFetchWord 40 0x0700000000) 0x0700000000 = none := by decide

theorem witness_ParametersAreFixed : ∃ t, exec (.fs 7) State.reset = .next t ∧ t.fsStep ≠ State.reset.fsStep :=
  ⟨_, rfl, by decide⟩

/-- A trigger sets the flag; a DAC-off write, a DAC-off trigger and the last length clock clear it. -/
theorem witness_OnlyTheseChangeTheEnabledFlag :
    (∃ t, exec (.nwr3Trig 0x80) (ready 0x80 0 0) = .next t ∧ (ready 0x80 0 0).noise.en = false ∧ t.noise.en = true) ∧
    (∃ t, exec (.nwr1 0x07) (sounding 1 1) = .next t ∧ (sounding 1 1).noise.en = true ∧ t.noise.en = false) ∧
    (∃ t, exec (.nwr3Trig 0x80) { (ready 0x07 0 0) with noise := { (ready 0x07 0 0).noise with en := true } } = .next t ∧
      t.noise.en = false) ∧
    (∃ t, exec .nclklen (counting 1) = .next t ∧ (counting 1).noise.en = true ∧ t.noise.en = false) :=
  ⟨⟨_, rfl, by decide, by decide⟩, ⟨_, rfl, by decide, by decide⟩, ⟨_, rfl, by decide⟩, ⟨_, rfl, by decide, by decide⟩⟩

theorem witness_OnlyTheseChangeInterruptBits :
    ∃ t, exec (.reqint 4) State.reset = .next t ∧ t.space.iflag ≠ State.reset.space.iflag := ⟨_, rfl, by decide⟩

theorem witness_OnlyTheseAttachOrDetachTheMapper :
    (∃ t, exec (.loadcart 1) State.reset = .next t ∧
      t.space.mapper.map MapperRef.cart ≠ State.reset.space.mapper.map MapperRef.cart) ∧
    (∃ t, exec .reset withCart = .next t ∧
      t.space.mapper.map MapperRef.cart ≠ withCart.space.mapper.map MapperRef.cart) :=
  ⟨⟨_, rfl, by decide⟩, ⟨_, rfl, by decide⟩⟩

end Sys2Proof.Tests
end

section
/-! PROOF. The two components share no state (R2). One notion carries both directions: an operation *ignores* a change of the
state when running it after the change is running it and then making the change. For a change that puts other values in some
fields this says both that the operation does not read those fields and that it does not write them. -/

namespace Sys2Proof.Machine

/-! ## Ignoring a change of the state -/

/-- `g` on the next state of an outcome; a fault and a refusal stay. -/
def mapNext (g : State → State) : Host.Outcome State Fault Refusal → Host.Outcome State Fault Refusal
  | .next t => .next (g t)
  | .fault f => .fault f
  | .refused r => .refused r

@[simp] theorem mapNext_next (g : State → State) (t : State) : mapNext g (.next t) = .next (g t) := rfl

@[simp] theorem mapNext_fault (g : State → State) (f : Fault) : mapNext g (.fault f) = .fault f := rfl

@[simp] theorem mapNext_refused (g : State → State) (r : Refusal) : mapNext g (.refused r) = .refused r := rfl

/-- The meaning `m` takes no notice of the change `g`: it commutes with it, faults and refusals included. -/
def Ignores (m : State → Host.Outcome State Fault Refusal) (g : State → State) : Prop :=
  ∀ s, m (g s) = mapNext g (m s)

/-- What the change puts in place is still there afterwards: where `g` changes nothing before, it changes nothing after. -/
theorem Ignores.fixes_next {m : State → Host.Outcome State Fault Refusal} {g : State → State} (h : Ignores m g)
    {s t : State} (hs : g s = s) (ht : m s = .next t) : g t = t := by
  have hcomm := h s
  rw [hs, ht, mapNext_next] at hcomm
  exact (Host.Outcome.next.inj hcomm).symm

theorem finish_map (g : State → State) (r : Except Fault State) : finish (r.map g) = mapNext g (finish r) := by
  cases r <;> rfl

/-- Giving the byte as the datum commutes with any change that leaves the response alone. -/
theorem finishByte_map (g : State → State) (hg : ∀ (s : State) (d : Datum), (g s).respond d = g (s.respond d))
    (r : Except Fault (Byte × State)) : finishByte (r.map (Prod.map id g)) = mapNext g (finishByte r) := by
  cases r with
  | error f => rfl
  | ok vs => exact congrArg Host.Outcome.next (hg vs.2 (.byte vs.1))

theorem withMapper_map {α β : Type} (g : α → β) (a : Addr) (s : State) (k : Port → α) :
    withMapper a s (fun port => g (k port)) = (withMapper a s k).map g := by
  unfold withMapper
  split <;> rfl

/-! ## Another NoiseChannel and frame step -/

/-- The state with another NoiseChannel and another frame step put in place. -/
def replaceNoise (n : NoiseChannel) (fs : BitVec 3) (s : State) : State := { s with noise := n, fsStep := fs }

section
variable (n : NoiseChannel) (fs : BitVec 3) (s : State)

@[simp] theorem replaceNoise_self : replaceNoise s.noise s.fsStep s = s := rfl
@[simp] theorem replaceNoise_space : (replaceNoise n fs s).space = s.space := rfl
@[simp] theorem replaceNoise_params : (replaceNoise n fs s).params = s.params := rfl
@[simp] theorem replaceNoise_rejectedCarts : (replaceNoise n fs s).rejectedCarts = s.rejectedCarts := rfl
@[simp] theorem replaceNoise_array (b : Backing) : (replaceNoise n fs s).array b = s.array b := rfl
@[simp] theorem replaceNoise_hidden (port : Port) : (replaceNoise n fs s).hidden port = s.hidden port := rfl
@[simp] theorem replaceNoise_withMapper {α : Type} (a : Addr) (k : Port → α) :
    withMapper a (replaceNoise n fs s) k = withMapper a s k := rfl

/-! Every update an AddressSpace operation is made of commutes with the replacement. -/

@[simp] theorem replaceNoise_begin : (replaceNoise n fs s).begin = replaceNoise n fs s.begin := rfl
@[simp] theorem replaceNoise_respond (d : Datum) :
    (replaceNoise n fs s).respond d = replaceNoise n fs (s.respond d) := rfl
@[simp] theorem replaceNoise_emit (e : Event) : (replaceNoise n fs s).emit e = replaceNoise n fs (s.emit e) := rfl
@[simp] theorem replaceNoise_diagnose (kind : AccessKind) (a : Addr) :
    (replaceNoise n fs s).diagnose kind a = replaceNoise n fs (s.diagnose kind a) := rfl
@[simp] theorem replaceNoise_setIe (v : Byte) : (replaceNoise n fs s).setIe v = replaceNoise n fs (s.setIe v) := rfl
@[simp] theorem replaceNoise_setIflag (f : BitVec 5) :
    (replaceNoise n fs s).setIflag f = replaceNoise n fs (s.setIflag f) := rfl
@[simp] theorem replaceNoise_setKey1 (k : BitVec 1) :
    (replaceNoise n fs s).setKey1 k = replaceNoise n fs (s.setKey1 k) := rfl

@[simp] theorem replaceNoise_setArray (b : Backing) (m : Memory) :
    (replaceNoise n fs s).setArray b m = replaceNoise n fs (s.setArray b m) := by
  cases b <;> rfl

@[simp] theorem replaceNoise_setByte (l : Location) (v : Byte) :
    (replaceNoise n fs s).setByte l v = replaceNoise n fs (s.setByte l v) := by
  unfold State.setByte
  split <;> simp

@[simp] theorem replaceNoise_setHidden (port : Port) (st : Nat) :
    (replaceNoise n fs s).setHidden port st = replaceNoise n fs (s.setHidden port st) := by
  cases port <;> rfl

@[simp] theorem replaceNoise_callPort (port : Port) (c : PortCall) :
    (replaceNoise n fs s).callPort port c = replaceNoise n fs (s.callPort port c) := by
  simp [State.callPort]

@[simp] theorem replaceNoise_portRead (port : Port) (a : Addr) :
    portRead port a (replaceNoise n fs s) = (portRead port a s).map id (replaceNoise n fs) := by
  simp [portRead]

@[simp] theorem replaceNoise_portPeek (port : Port) (a : Addr) :
    portPeek port a (replaceNoise n fs s) = (portPeek port a s).map id (replaceNoise n fs) := rfl

@[simp] theorem replaceNoise_portWrite (port : Port) (a : Addr) (v : Byte) :
    portWrite port a v (replaceNoise n fs s) = replaceNoise n fs (portWrite port a v s) :=
  replaceNoise_callPort n fs s port (.write a v)

@[simp] theorem replaceNoise_lowIoRead (a : Addr) :
    lowIoRead a (replaceNoise n fs s) = (lowIoRead a s).map id (replaceNoise n fs) := by
  unfold lowIoRead
  rw [replaceNoise_params]
  split
  · exact replaceNoise_portRead n fs s _ a
  · rfl

@[simp] theorem replaceNoise_lowIoPeek (a : Addr) :
    lowIoPeek a (replaceNoise n fs s) = (lowIoPeek a s).map id (replaceNoise n fs) := by
  unfold lowIoPeek
  rw [replaceNoise_params]
  split <;> rfl

@[simp] theorem replaceNoise_lowIoWrite (a : Addr) (v : Byte) :
    lowIoWrite a v (replaceNoise n fs s) = replaceNoise n fs (lowIoWrite a v s) := by
  unfold lowIoWrite
  rw [replaceNoise_params]
  split
  · exact replaceNoise_portWrite n fs s _ a v
  · rfl

/-! ## Byte accesses -/

theorem readRegion_replaceNoise (r : Region) (a : Addr) :
    readRegion r a (replaceNoise n fs s) = (readRegion r a s).map (Prod.map id (replaceNoise n fs)) := by
  cases r
  case rom | extram => simp [readRegion, withMapper_map]
  case sound | video | lowio => simp [readRegion, Except.map]
  all_goals rfl

theorem peekRegion_replaceNoise (r : Region) (a : Addr) :
    peekRegion r a (replaceNoise n fs s) = (peekRegion r a s).map (Prod.map id (replaceNoise n fs)) := by
  cases r
  case rom | extram => simp [peekRegion, withMapper_map]
  case sound | video | lowio => simp [peekRegion, Except.map]
  all_goals rfl

theorem writeRegion_replaceNoise (d : WriteDest) (a : Addr) (v : Byte) :
    writeRegion d a v (replaceNoise n fs s) = (writeRegion d a v s).map (replaceNoise n fs) := by
  rcases d with _ | r
  · simp [writeRegion, Except.map]
  · cases r
    case rom | extram => simp [writeRegion, withMapper_map]
    all_goals simp [writeRegion, Except.map]

theorem memRead_replaceNoise (a : Addr) :
    memRead a (replaceNoise n fs s) = (memRead a s).map (Prod.map id (replaceNoise n fs)) :=
  readRegion_replaceNoise n fs s (decodeRead s.params a) a

theorem memWrite_replaceNoise (a : Addr) (v : Byte) :
    memWrite a v (replaceNoise n fs s) = (memWrite a v s).map (replaceNoise n fs) :=
  writeRegion_replaceNoise n fs s (decodeWrite s.params a) a v

end

/-! ## AddressSpace operations -/

/-- The operations of AddressSpace by what they do: a byte access of one of the three kinds, a 16-bit access, or one of the
four system operations. -/
inductive AddressSpaceOp : Instr → Prop where
  | read (r : Region) (a : Addr) : AddressSpaceOp (readInstr r a)
  | write (d : WriteDest) (a : Addr) (v : Byte) : AddressSpaceOp (writeInstr d a v)
  | peek (r : Region) (a : Addr) : AddressSpaceOp (peekInstr r a)
  | rd16 (a : Addr) : AddressSpaceOp (.rd16 a)
  | wr16 (a : Addr) (v : Half) : AddressSpaceOp (.wr16 a v)
  | reqint (bit : Nat) : AddressSpaceOp (.reqint bit)
  | reset : AddressSpaceOp .reset
  | tick : AddressSpaceOp .tick
  | loadcart (cart : BitVec 16) : AddressSpaceOp (.loadcart cart)

/-- An operation with an `op` below 0x10 is one of AddressSpace (R92). -/
theorem addressSpaceOp_of_op_lt (i : Instr) (h : (opField (encode i)).toNat < 0x10) : AddressSpaceOp i := by
  cases i
  case rdRom a => exact .read .rom a
  case rdVram a => exact .read .vram a
  case rdExtram a => exact .read .extram a
  case rdWram0 a => exact .read .wram0 a
  case rdWram1 a => exact .read .wram1 a
  case rdEcho a => exact .read .echo a
  case rdOam a => exact .read .oam a
  case rdUnusable a => exact .read .unusable a
  case rdLowio a => exact .read .lowio a
  case rdIf a => exact .read .ifReg a
  case rdSound a => exact .read .sound a
  case rdVideo a => exact .read .video a
  case rdKey1 a => exact .read .key1 a
  case rdIounmapped a => exact .read .ioUnmapped a
  case rdHram a => exact .read .hram a
  case rdIe a => exact .read .ie a
  case wrRom a v => exact .write (.region .rom) a v
  case wrVram a v => exact .write (.region .vram) a v
  case wrExtram a v => exact .write (.region .extram) a v
  case wrWram0 a v => exact .write (.region .wram0) a v
  case wrWram1 a v => exact .write (.region .wram1) a v
  case wrEcho a v => exact .write (.region .echo) a v
  case wrOam a v => exact .write (.region .oam) a v
  case wrUnusable a v => exact .write (.region .unusable) a v
  case wrLowio a v => exact .write (.region .lowio) a v
  case wrIf a v => exact .write (.region .ifReg) a v
  case wrSound a v => exact .write (.region .sound) a v
  case wrVideo a v => exact .write (.region .video) a v
  case wrDma a v => exact .write .dma a v
  case wrKey1 a v => exact .write (.region .key1) a v
  case wrIounmapped a v => exact .write (.region .ioUnmapped) a v
  case wrHram a v => exact .write (.region .hram) a v
  case wrIe a v => exact .write (.region .ie) a v
  case peekRom a => exact .peek .rom a
  case peekVram a => exact .peek .vram a
  case peekExtram a => exact .peek .extram a
  case peekWram0 a => exact .peek .wram0 a
  case peekWram1 a => exact .peek .wram1 a
  case peekEcho a => exact .peek .echo a
  case peekOam a => exact .peek .oam a
  case peekUnusable a => exact .peek .unusable a
  case peekLowio a => exact .peek .lowio a
  case peekIf a => exact .peek .ifReg a
  case peekSound a => exact .peek .sound a
  case peekVideo a => exact .peek .video a
  case peekKey1 a => exact .peek .key1 a
  case peekIounmapped a => exact .peek .ioUnmapped a
  case peekHram a => exact .peek .hram a
  case peekIe a => exact .peek .ie a
  case rd16 a => exact .rd16 a
  case wr16 a v => exact .wr16 a v
  case reqint bit => exact .reqint bit
  case reset => exact .reset
  case tick => exact .tick
  case loadcart cart => exact .loadcart cart
  all_goals simp [encode] at h

theorem execRd16_ignores_noise (n : NoiseChannel) (fs : BitVec 3) (a : Addr) :
    Ignores (execRd16 a) (replaceNoise n fs) := by
  intro s
  unfold execRd16
  rw [replaceNoise_begin, memRead_replaceNoise]
  cases memRead a s.begin with
  | error f => rfl
  | ok lo =>
    simp only [Except.map, Prod.map_snd, memRead_replaceNoise]
    cases memRead (nextAddr a) lo.2 <;> rfl

theorem execWr16_ignores_noise (n : NoiseChannel) (fs : BitVec 3) (a : Addr) (v : Half) :
    Ignores (execWr16 a v) (replaceNoise n fs) := by
  intro s
  unfold execWr16
  rw [replaceNoise_begin, memWrite_replaceNoise]
  cases memWrite a (lowByte v) s.begin with
  | error f => rfl
  | ok t =>
    have hsecond := memWrite_replaceNoise n fs t (nextAddr a) (highByte v)
    exact (congrArg finish hsecond).trans (finish_map _ _)

theorem execReqint_ignores_noise (n : NoiseChannel) (fs : BitVec 3) (bit : Nat) :
    Ignores (execReqint bit) (replaceNoise n fs) := by
  intro s
  unfold execReqint
  split <;> rfl

/-- LOADCART flushes the old mapper only where there is one, and is refused only by the parser's verdict. -/
theorem execLoadcart_ignores_noise (n : NoiseChannel) (fs : BitVec 3) (cart : BitVec 16) :
    Ignores (execLoadcart cart) (replaceNoise n fs) := by
  intro s
  have hflush : flushOldMapper (replaceNoise n fs s.begin) = replaceNoise n fs (flushOldMapper s.begin) := by
    unfold flushOldMapper
    rw [replaceNoise_space]
    split <;> rfl
  unfold execLoadcart
  rw [replaceNoise_rejectedCarts, replaceNoise_begin, hflush]
  split <;> rfl

/-- R2, first half: no AddressSpace operation reads or writes NoiseChannel or the frame step. -/
theorem AddressSpaceOp.ignores_noise {i : Instr} (hi : AddressSpaceOp i) (n : NoiseChannel) (fs : BitVec 3) :
    Ignores (exec i) (replaceNoise n fs) := by
  cases hi with
  | read r a =>
    intro s
    rw [exec_readInstr, exec_readInstr, replaceNoise_begin, readRegion_replaceNoise, finishByte_map]
    exact replaceNoise_respond n fs
  | write d a v =>
    intro s
    rw [exec_writeInstr, exec_writeInstr, replaceNoise_begin, writeRegion_replaceNoise, finish_map]
  | peek r a =>
    intro s
    rw [exec_peekInstr, exec_peekInstr, replaceNoise_begin, peekRegion_replaceNoise, finishByte_map]
    exact replaceNoise_respond n fs
  | rd16 a => exact execRd16_ignores_noise n fs a
  | wr16 a v => exact execWr16_ignores_noise n fs a v
  | reqint bit => exact execReqint_ignores_noise n fs bit
  | reset => exact fun s => rfl
  | tick => exact fun s => rfl
  | loadcart cart => exact execLoadcart_ignores_noise n fs cart

/-! ## NoiseChannel operations -/

/-- The state with another AddressSpace and other collaborator states put in place. -/
def replaceSpace (sp : AddressSpace) (po : PortStates) (s : State) : State := { s with space := sp, ports := po }

@[simp] theorem replaceSpace_self (s : State) : replaceSpace s.space s.ports s = s := rfl

/-- An operation with an `op` of 0x10 or more (R92) answers a next state, and R2, second half: its meaning names neither
AddressSpace nor a collaborator. -/
theorem noiseOp_next_and_ignores_space (i : Instr) (h : 0x10 ≤ (opField (encode i)).toNat) :
    (∀ s, ∃ t, exec i s = .next t) ∧ ∀ sp po, Ignores (exec i) (replaceSpace sp po) := by
  cases i
  case nwr0 | nwr1 | nwr2 | nwr3 | nwr3Trig | nrd0 | nrd1 | nrd2 | nrd3 | nadv | nclklen | nclkenv |
      nenabled | nsample | fs =>
    exact ⟨fun s => ⟨_, rfl⟩, fun sp po s => rfl⟩
  all_goals simp [encode] at h

/-! ## The statement -/

/-- Settles O54: each operation ignores the replacement of the other component, and a replacement by the values the state
already holds shows that it leaves them. -/
theorem componentsShareNoState : Obligations.ComponentsShareNoState := by
  unfold Obligations.ComponentsShareNoState
  constructor
  · intro i s n fs hop
    have hign := (addressSpaceOp_of_op_lt i hop).ignores_noise
    have hcomm : exec i (replaceNoise n fs s) = mapNext (replaceNoise n fs) (exec i s) := hign n fs s
    refine ⟨fun t ht => ?_, fun f hf => ?_, fun r hr => ?_⟩
    · have hkept : replaceNoise s.noise s.fsStep t = t := (hign s.noise s.fsStep).fixes_next (replaceNoise_self s) ht
      rw [ht] at hcomm
      exact ⟨(congrArg State.noise hkept).symm, (congrArg State.fsStep hkept).symm, hcomm⟩
    · rw [hf] at hcomm
      exact hcomm
    · rw [hr] at hcomm
      exact hcomm
  · intro i s sp po hop
    obtain ⟨hnext, hign⟩ := noiseOp_next_and_ignores_space i hop
    obtain ⟨t, ht⟩ := hnext s
    have hkept : replaceSpace s.space s.ports t = t := (hign s.space s.ports).fixes_next (replaceSpace_self s) ht
    have hcomm : exec i (replaceSpace sp po s) = mapNext (replaceSpace sp po) (exec i s) := hign sp po s
    rw [ht] at hcomm
    exact ⟨t, ht, (congrArg State.space hkept).symm, (congrArg State.ports hkept).symm, hcomm⟩

end Sys2Proof.Machine
end

section
/-! PROOF. AddressSpace at power-on and after RESET (R51). RESET puts the power-on AddressSpace in place and then calls four
collaborators, none of them the mapper; the state of the others is no part of AddressSpace, so the calls leave it there. -/

namespace Sys2Proof.Machine

/-- Of the collaborators only the mapper has its hidden state in AddressSpace (R29). -/
theorem State.setHidden_space_of_ne_mapper (s : State) (port : Port) (st : Nat) (h : ∀ cart, port ≠ .mapper cart) :
    (s.setHidden port st).space = s.space := by
  cases port
  case mapper cart => exact absurd rfl (h cart)
  all_goals rfl

theorem portReset_space_of_ne_mapper (s : State) (port : Port) (h : ∀ cart, port ≠ .mapper cart) :
    (portReset port s).space = s.space :=
  (s.emit (.call port .reset)).setHidden_space_of_ne_mapper port _ h

/-- The state that RESET answers has the AddressSpace of power-on. -/
theorem space_eq_reset_of_exec_reset {s t : State} (h : exec .reset s = .next t) : t.space = AddressSpace.reset := by
  rw [exec_reset] at h
  obtain rfl := Host.Outcome.next.inj h
  simp [portReset_space_of_ne_mapper]

/-- No array of the power-on AddressSpace lists a cell. -/
theorem State.array_of_space_eq_reset {t : State} (h : t.space = AddressSpace.reset) (b : Backing) : t.array b = [] := by
  cases b <;> simp only [State.array, h, AddressSpace.reset]

/-- Settles O49: power-on and RESET give the same AddressSpace, which lists no byte and holds 0 in every register. -/
theorem addressSpaceAtPowerOnAndAfterReset : Obligations.AddressSpaceAtPowerOnAndAfterReset := by
  unfold Obligations.AddressSpaceAtPowerOnAndAfterReset
  intro t ht
  have hspace : t.space = AddressSpace.reset := by
    obtain rfl | ⟨s, hs⟩ := ht
    · rfl
    · exact space_eq_reset_of_exec_reset hs
  refine ⟨fun l => ?_, ?_⟩
  · rw [State.byteAt, State.array_of_space_eq_reset hspace]
    exact Memory.read_nil l.index
  · rw [hspace]
    exact ⟨rfl, rfl, rfl, rfl⟩

end Sys2Proof.Machine
end

section
/-! PROOF. The accesses to what AddressSpace owns (R123 to R137, R142 to R157, R160). A read of an owned destination changes
the response and nothing else, a write stores in one place: each is said once for all rows, and the statements are
instances. -/

namespace Sys2Proof.Machine

/-! ## One row of a bus operation -/

/-- RD of a destination that moves nothing and emits nothing. -/
theorem exec_readInstr_of_unmoved (r : Region) {a : Addr} {s : State} {v : Byte}
    (h : readRegion r a s.begin = .ok (v, s.begin)) :
    exec (readInstr r a) s = .next { s with out := ⟨.byte v, false, []⟩ } := by
  rw [exec_readInstr, h]
  rfl

theorem exec_writeInstr_of_ok (d : WriteDest) {a : Addr} {v : Byte} {s t : State}
    (h : writeRegion d a v s.begin = .ok t) : exec (writeInstr d a v) s = .next t := by
  rw [exec_writeInstr, h, finish_ok]

/-! ## Array destinations -/

/-- The storage byte that an access to a region reads or writes; none where the region is no window onto an array. -/
def arrayAt (r : Region) (a : Addr) : Option Location :=
  match r with
  | .vram => some (vramAt a)
  | .wram0 => some (wram0At a)
  | .wram1 => some (wram1At a)
  | .echo => some (echoAt a)
  | .oam => some (oamAt a)
  | .hram => some (hramAt a)
  | _ => none

theorem readRegion_of_arrayAt {r : Region} {a : Addr} {l : Location} (h : arrayAt r a = some l) (s : State) :
    readRegion r a s = .ok (s.byteAt l, s) := by
  cases r <;> cases h <;> rfl

theorem writeRegion_of_arrayAt {r : Region} {a : Addr} {l : Location} (h : arrayAt r a = some l) (v : Byte) (s : State) :
    writeRegion (.region r) a v s = .ok (s.setByte l v) := by
  cases r <;> cases h <;> rfl

theorem exec_readInstr_of_arrayAt (r : Region) {a : Addr} {l : Location} (h : arrayAt r a = some l) (s : State) :
    exec (readInstr r a) s = .next { s with out := ⟨.byte (s.byteAt l), false, []⟩ } := by
  apply exec_readInstr_of_unmoved
  rw [readRegion_of_arrayAt h, State.begin_byteAt]

/-- The write of a storage byte inside its array is a write of that byte only. -/
theorem storesOnly_setByte (s : State) (l : Location) (v : Byte) (hl : l.index < l.array.size) :
    StoresOnly s (s.begin.setByte l v) l v := by
  refine ⟨s.begin.byteAt_setByte_same l v hl, fun k hk => ?_, ?_, ?_⟩
  · rw [s.begin.byteAt_setByte_other l k v hk, State.begin_byteAt]
  · simp [SameOutsideArrays]
  · simp

theorem exec_writeInstr_of_arrayAt (r : Region) {a : Addr} {l : Location} (h : arrayAt r a = some l)
    (hl : l.index < l.array.size) (v : Byte) (s : State) :
    ∃ t, exec (writeInstr (.region r) a v) s = .next t ∧ StoresOnly s t l v :=
  ⟨_, exec_writeInstr_of_ok _ (writeRegion_of_arrayAt h v s.begin), storesOnly_setByte s l v hl⟩

/-- Settles O11: the index of each window is a plain difference, and in the echo region the bank follows the address. -/
theorem readsOfArraysReturnTheStoredByte : Obligations.ReadsOfArraysReturnTheStoredByte := by
  unfold Obligations.ReadsOfArraysReturnTheStoredByte
  intro s a
  exact ⟨fun lo _ => exec_readInstr_of_arrayAt .vram (congrArg some (vramAt_eq a lo)) s,
    fun lo _ => exec_readInstr_of_arrayAt .wram0 (congrArg some (wram0At_eq a lo)) s,
    fun lo _ => exec_readInstr_of_arrayAt .wram1 (congrArg some (wram1At_eq a lo)) s,
    fun lo hi => exec_readInstr_of_arrayAt .echo (congrArg some (echoAt_eq_bank0 a lo hi)) s,
    fun lo _ => exec_readInstr_of_arrayAt .echo (congrArg some (echoAt_eq_bank1 a lo)) s,
    fun lo _ => exec_readInstr_of_arrayAt .oam (congrArg some (oamAt_eq a lo)) s,
    fun lo _ => exec_readInstr_of_arrayAt .hram (congrArg some (hramAt_eq a lo)) s⟩

/-- An address in a window no longer than the array it opens onto has its index inside the array. -/
theorem index_lt_size {n base top : Nat} (b : Backing) (lo : base ≤ n) (hi : n < top) (hfit : top ≤ base + b.size) :
    n - base < b.size := by
  omega

/-- Settles O17: as for the reads, and each window is no longer than its array, so that the store is in range. -/
theorem writesToArraysStoreOneByte : Obligations.WritesToArraysStoreOneByte := by
  unfold Obligations.WritesToArraysStoreOneByte
  intro s a v
  refine ⟨
    fun lo hi => exec_writeInstr_of_arrayAt .vram (congrArg some (vramAt_eq a lo)) (index_lt_size .vram lo hi ?_) v s,
    fun lo hi => exec_writeInstr_of_arrayAt .wram0 (congrArg some (wram0At_eq a lo)) (index_lt_size .wram0 lo hi ?_) v s,
    fun lo hi => exec_writeInstr_of_arrayAt .wram1 (congrArg some (wram1At_eq a lo)) (index_lt_size .wram1 lo hi ?_) v s,
    fun lo hi => exec_writeInstr_of_arrayAt .echo (congrArg some (echoAt_eq_bank0 a lo hi))
      (index_lt_size .wram0 lo hi ?_) v s,
    fun lo hi => exec_writeInstr_of_arrayAt .echo (congrArg some (echoAt_eq_bank1 a lo))
      (index_lt_size .wram1 lo hi ?_) v s,
    fun lo hi => exec_writeInstr_of_arrayAt .oam (congrArg some (oamAt_eq a lo)) (index_lt_size .oam lo hi ?_) v s,
    fun lo hi => exec_writeInstr_of_arrayAt .hram (congrArg some (hramAt_eq a lo)) (index_lt_size .hram lo hi ?_) v s⟩
  all_goals decide

/-! ## Registers, the unusable range and unmapped addresses -/

/-- Settles O12: none of the four reads moves anything, and each byte is the one the rule gives. -/
theorem readsOfRegistersAndTheUnusableRange : Obligations.ReadsOfRegistersAndTheUnusableRange := by
  unfold Obligations.ReadsOfRegistersAndTheUnusableRange
  intro s a
  exact ⟨exec_readInstr_of_unmoved .unusable rfl, exec_readInstr_of_unmoved .ifReg rfl,
    exec_readInstr_of_unmoved .key1 rfl, exec_readInstr_of_unmoved .ie rfl⟩

/-- Settles O13: both accesses are the one diagnostic; the read answers 00 beside it. -/
theorem unmappedAccessesAreDiagnosed : Obligations.UnmappedAccessesAreDiagnosed := by
  unfold Obligations.UnmappedAccessesAreDiagnosed
  intro s a v
  exact ⟨exec_readInstr .ioUnmapped a s, exec_writeInstr_of_ok (.region .ioUnmapped) rfl⟩

theorem ifStore_eq_setWidth (v : Byte) : ifStore v = v.setWidth 5 := (BitVec.setWidth_eq_extractLsb' (by decide)).symm

theorem key1Store_eq_setWidth (v : Byte) : key1Store v = v.setWidth 1 := (BitVec.setWidth_eq_extractLsb' (by decide)).symm

/-- Settles O18: what IF and KEY1 keep of the datum is its low bits; IE keeps all of it. -/
theorem writesToRegistersStoreTheirBits : Obligations.WritesToRegistersStoreTheirBits := by
  unfold Obligations.WritesToRegistersStoreTheirBits
  intro s a v
  rw [← ifStore_eq_setWidth, ← key1Store_eq_setWidth]
  exact ⟨exec_writeInstr_of_ok (.region .ifReg) rfl, exec_writeInstr_of_ok (.region .key1) rfl,
    exec_writeInstr_of_ok (.region .ie) rfl⟩

/-- Settles O19: the write answers the state it started from, with its empty response. -/
theorem writesToTheUnusableRangeAreDropped : Obligations.WritesToTheUnusableRangeAreDropped := by
  unfold Obligations.WritesToTheUnusableRangeAreDropped
  exact fun _ _ _ => exec_writeInstr_of_ok (.region .unusable) rfl

/-! ## PEEK of an owned destination -/

/-- The destinations AddressSpace owns: an access there calls no collaborator (R160). -/
def ownedRegions : List Region :=
  [.vram, .wram0, .wram1, .echo, .oam, .unusable, .ifReg, .key1, .ioUnmapped, .hram, .ie]

theorem peekRegion_of_owned {r : Region} (h : r ∈ ownedRegions) (a : Addr) (s : State) :
    peekRegion r a s = readRegion r a s := by
  cases r
  case rom | extram | lowio | sound | video => exact absurd h (by decide)
  all_goals rfl

theorem peekRegion_ok_of_owned {r : Region} (h : r ∈ ownedRegions) (a : Addr) (s : State) :
    ∃ v t, peekRegion r a s = .ok (v, t) := by
  cases hp : peekRegion r a s with
  | error f =>
    obtain ⟨rfl | rfl, -⟩ := (peekRegion_eq_error r a s f).mp hp
    all_goals exact absurd h (by decide)
  | ok vt => exact ⟨vt.1, vt.2, rfl⟩

/-- Settles O25: on an owned destination PEEK is RD, it completes, and PEEK never changes more than the response. -/
theorem peekOfOwnedDestinationsIsTheRead : Obligations.PeekOfOwnedDestinationsIsTheRead := by
  unfold Obligations.PeekOfOwnedDestinationsIsTheRead
  intro s a ir hir
  change ir ∈ ownedRegions.map fun r => (peekInstr r a, readInstr r a) at hir
  obtain ⟨r, hr, rfl⟩ := List.mem_map.mp hir
  refine ⟨?_, ?_⟩
  · rw [exec_peekInstr, exec_readInstr, peekRegion_of_owned hr]
  · obtain ⟨v, t, hpeek⟩ := peekRegion_ok_of_owned hr a s.begin
    obtain ⟨o, rfl⟩ := peekRegion_only_out r a s.begin t v hpeek
    rw [exec_peekInstr, hpeek]
    exact ⟨v, o.diag, o.events, rfl⟩

end Sys2Proof.Machine
end

section
/-! PROOF. A 16-bit access is two byte accesses (R162, R163). The composite runs its second half on the response of the first,
where two separate operations would each start from an empty one. An access only appends to the response it finds, so running
it on a response is running it on the empty one and putting the response in front afterwards. -/

namespace Sys2Proof.Machine

/-! ## Putting an earlier response in front -/

/-- The state with the response `o` of an earlier access in front of its own. -/
def afterResponse (o : Output) (s : State) : State :=
  { s with out := ⟨o.datum, o.diag || s.out.diag, o.events ++ s.out.events⟩ }

section
variable (o : Output) (s : State)

/-- Every state is the one that starts anew from it, with its response put in front. -/
theorem afterResponse_out_begin : afterResponse s.out s.begin = s := by
  simp [afterResponse, State.begin, Output.empty]

@[simp] theorem afterResponse_params : (afterResponse o s).params = s.params := rfl
@[simp] theorem afterResponse_hidden (port : Port) : (afterResponse o s).hidden port = s.hidden port := rfl
@[simp] theorem afterResponse_withMapper {α : Type} (a : Addr) (k : Port → α) :
    withMapper a (afterResponse o s) k = withMapper a s k := rfl

/-! Every update a byte access is made of commutes with it: two of them append to the response, the others leave it alone. -/

@[simp] theorem afterResponse_emit (e : Event) : (afterResponse o s).emit e = afterResponse o (s.emit e) := by
  simp [afterResponse, State.emit]

@[simp] theorem afterResponse_diagnose (kind : AccessKind) (a : Addr) :
    (afterResponse o s).diagnose kind a = afterResponse o (s.diagnose kind a) := by
  simp [afterResponse, State.diagnose]

@[simp] theorem afterResponse_setIe (v : Byte) : (afterResponse o s).setIe v = afterResponse o (s.setIe v) := rfl
@[simp] theorem afterResponse_setIflag (f : BitVec 5) :
    (afterResponse o s).setIflag f = afterResponse o (s.setIflag f) := rfl
@[simp] theorem afterResponse_setKey1 (k : BitVec 1) : (afterResponse o s).setKey1 k = afterResponse o (s.setKey1 k) := rfl

@[simp] theorem afterResponse_setByte (l : Location) (v : Byte) :
    (afterResponse o s).setByte l v = afterResponse o (s.setByte l v) := by
  unfold State.setByte
  split
  · cases l.array <;> rfl
  · rfl

@[simp] theorem afterResponse_callPort (port : Port) (c : PortCall) :
    (afterResponse o s).callPort port c = afterResponse o (s.callPort port c) := by
  unfold State.callPort
  rw [afterResponse_emit]
  cases port <;> rfl

@[simp] theorem afterResponse_portRead (port : Port) (a : Addr) :
    portRead port a (afterResponse o s) = (portRead port a s).map id (afterResponse o) := by
  simp [portRead]

@[simp] theorem afterResponse_portWrite (port : Port) (a : Addr) (v : Byte) :
    portWrite port a v (afterResponse o s) = afterResponse o (portWrite port a v s) :=
  afterResponse_callPort o s port (.write a v)

@[simp] theorem afterResponse_unmappedRead (a : Addr) :
    unmappedRead a (afterResponse o s) = (unmappedRead a s).map id (afterResponse o) := by
  simp [unmappedRead]

@[simp] theorem afterResponse_lowIoRead (a : Addr) :
    lowIoRead a (afterResponse o s) = (lowIoRead a s).map id (afterResponse o) := by
  unfold lowIoRead
  rw [afterResponse_params]
  split <;> simp

@[simp] theorem afterResponse_lowIoWrite (a : Addr) (v : Byte) :
    lowIoWrite a v (afterResponse o s) = afterResponse o (lowIoWrite a v s) := by
  unfold lowIoWrite
  rw [afterResponse_params]
  split <;> simp

/-! ## Byte accesses -/

theorem memRead_afterResponse (a : Addr) :
    memRead a (afterResponse o s) = (memRead a s).map (Prod.map id (afterResponse o)) := by
  unfold memRead
  rw [afterResponse_params]
  cases decodeRead s.params a
  case rom | extram => simp [readRegion, withMapper_map]
  case sound | video | lowio | ioUnmapped => simp [readRegion, Except.map]
  all_goals rfl

theorem memWrite_afterResponse (a : Addr) (v : Byte) :
    memWrite a v (afterResponse o s) = (memWrite a v s).map (afterResponse o) := by
  unfold memWrite
  rw [afterResponse_params]
  rcases decodeWrite s.params a with _ | r
  · simp [writeRegion, Except.map]
  · cases r
    case rom | extram => simp [writeRegion, withMapper_map]
    all_goals simp [writeRegion, Except.map]

end

/-- A read answers as it does after an empty response, and appends its own to the one it finds. -/
theorem memRead_eq_map_begin (a : Addr) (s : State) :
    memRead a s = (memRead a s.begin).map (Prod.map id (afterResponse s.out)) := by
  rw [← memRead_afterResponse, afterResponse_out_begin]

theorem memWrite_eq_map_begin (a : Addr) (v : Byte) (s : State) :
    memWrite a v s = (memWrite a v s.begin).map (afterResponse s.out) := by
  rw [← memWrite_afterResponse, afterResponse_out_begin]

/-! ## The halves as rows of the byte operations -/

/-- RD where the parameters are `p`, as they are before each half (R120). -/
theorem exec_read_eq_memRead {p : Params} {s : State} (hp : s.params = p) (a : Addr) :
    exec (readInstr (decodeRead p a) a) s = finishByte (memRead a s.begin) := by
  subst hp
  exact exec_readInstr (decodeRead s.params a) a s

/-- WR where the parameters are `p` (R140). -/
theorem exec_write_eq_memWrite {p : Params} {s : State} (hp : s.params = p) (a : Addr) (v : Byte) :
    exec (writeInstr (decodeWrite p a) a v) s = finish (memWrite a v s.begin) := by
  subst hp
  exact exec_writeInstr (decodeWrite s.params a) a v s

theorem memWrite_params {a : Addr} {v : Byte} {s t : State} (h : memWrite a v s = .ok t) : t.params = s.params := by
  obtain ⟨l, rfl⟩ | rfl | rfl | rfl | hquiet := writeRegion_cases _ a v s t h
  · exact State.setByte_params s l v
  · rfl
  · rfl
  · rfl
  · exact hquiet.params

/-- A write gives no datum: an empty response in front of it changes nothing, and the one it ends with has that datum. -/
theorem memWrite_datum {a : Addr} {v : Byte} {s t : State} (h : memWrite a v s.begin = .ok t) : t.out.datum = .none := by
  have hfront := memWrite_afterResponse Output.empty s.begin a v
  rw [show afterResponse Output.empty s.begin = s.begin from rfl, h] at hfront
  exact congrArg (fun u => u.out.datum) (Except.ok.inj hfront)

/-! ## RD16 -/

section
variable {a : Addr} {s t u : State} {lo hi : Byte} {f : Fault}

theorem execRd16_of_first_fault (h : memRead a s.begin = .error f) : execRd16 a s = .fault f := by
  simp only [execRd16, h]

theorem execRd16_of_second_fault (h : memRead a s.begin = .ok (lo, t)) (h' : memRead (nextAddr a) t.begin = .error f) :
    execRd16 a s = .fault f := by
  have hsecond : memRead (nextAddr a) t = .error f := by rw [memRead_eq_map_begin, h']; rfl
  simp only [execRd16, h, hsecond]

theorem execRd16_of_ok (h : memRead a s.begin = .ok (lo, t)) (h' : memRead (nextAddr a) t.begin = .ok (hi, u)) :
    execRd16 a s = .next ((afterResponse t.out u).respond (.half (joinBytes hi lo))) := by
  have hsecond : memRead (nextAddr a) t = .ok (hi, afterResponse t.out u) := by rw [memRead_eq_map_begin, h']; rfl
  simp only [execRd16, h, hsecond]

end

/-- Settles O28: the second RD starts from an empty response where the second half of RD16 runs on that of the first, and
putting the first response in front makes up for it. -/
theorem rd16IsTwoReads : Obligations.Rd16IsTwoReads := by
  unfold Obligations.Rd16IsTwoReads
  intro s a
  simp only [exec_rd16, exec_read_eq_memRead (s := s) rfl, finishByte_eq_next, finishByte_eq_fault]
  refine ⟨fun f => execRd16_of_first_fault, ?_, ?_⟩
  · rintro s1 f ⟨lo, t, hfirst, rfl⟩ hsecond
    have hp : (t.respond (.byte lo)).params = s.params := (memRead_quiet _ _ _ _ hfirst).params
    rw [exec_read_eq_memRead hp, finishByte_eq_fault] at hsecond
    exact execRd16_of_second_fault hfirst hsecond
  · rintro s1 s2 lo hi ⟨lo', t, hfirst, rfl⟩ hlo hsecond hhi
    have hp : (t.respond (.byte lo')).params = s.params := (memRead_quiet _ _ _ _ hfirst).params
    rw [exec_read_eq_memRead hp, finishByte_eq_next] at hsecond
    obtain ⟨hi', u, hsecond, rfl⟩ := hsecond
    obtain rfl : lo' = lo := Datum.byte.inj hlo
    obtain rfl : hi' = hi := Datum.byte.inj hhi
    exact execRd16_of_ok (t := t) hfirst hsecond

/-! ## WR16 -/

section
variable {a : Addr} {v : Half} {s t u : State} {f : Fault}

theorem execWr16_of_first_fault (h : memWrite a (lowByte v) s.begin = .error f) : execWr16 a v s = .fault f := by
  simp only [execWr16, h]

theorem execWr16_of_first_ok (h : memWrite a (lowByte v) s.begin = .ok t) :
    execWr16 a v s = mapNext (afterResponse t.out) (finish (memWrite (nextAddr a) (highByte v) t.begin)) := by
  rw [← finish_map, ← memWrite_eq_map_begin]
  simp only [execWr16, h]

end

/-- Settles O29: as for RD16, and the first half leaves no datum to put in front. -/
theorem wr16IsTwoWrites : Obligations.Wr16IsTwoWrites := by
  unfold Obligations.Wr16IsTwoWrites
  intro s a v
  simp only [exec_wr16, exec_write_eq_memWrite (s := s) rfl, finish_eq_next, finish_eq_fault]
  refine ⟨fun f => execWr16_of_first_fault, fun t f hfirst hsecond => ?_, fun t u hfirst hsecond => ?_⟩
  · have hp : t.params = s.params := (memWrite_params hfirst).trans s.begin_params
    rw [exec_write_eq_memWrite hp] at hsecond
    rw [execWr16_of_first_ok hfirst]
    exact congrArg (mapNext (afterResponse t.out)) hsecond
  · have hp : t.params = s.params := (memWrite_params hfirst).trans s.begin_params
    rw [exec_write_eq_memWrite hp] at hsecond
    rw [execWr16_of_first_ok hfirst, ← memWrite_datum hfirst]
    exact congrArg (mapNext (afterResponse t.out)) hsecond

end Sys2Proof.Machine
end

section
/-! PROOF. The system operations REQINT, RESET and TICK (R170 to R172): the whole next state of each is said once, and the
statements are read off it. -/

namespace Sys2Proof.Machine

/-! ## REQINT -/

/-- The bound of R170 needs no case of its own: a request beyond the five bits is a power of two that five bits do not hold,
so the mask is 0. -/
theorem exec_reqint_eq (bit : Nat) (s : State) :
    exec (.reqint bit) s = .next (s.begin.setIflag (s.space.iflag ||| BitVec.twoPow 5 bit)) := by
  rw [exec_reqint, execReqint]
  split
  · rfl
  · next hbit =>
    have hmask : BitVec.twoPow 5 bit = 0#5 := BitVec.eq_of_toNat_eq (BitVec.toNat_twoPow_of_le (by omega))
    rw [hmask, BitVec.or_zero]
    rfl

/-- Settles O32: the mask has the requested bit and no other. -/
theorem requestInterruptSetsOneBit : Obligations.RequestInterruptSetsOneBit := by
  unfold Obligations.RequestInterruptSetsOneBit
  intro s bit
  refine ⟨s.space.iflag ||| BitVec.twoPow 5 bit, exec_reqint_eq bit s, fun k hk => ?_⟩
  rw [BitVec.getLsbD_or, BitVec.getLsbD_twoPow]
  by_cases h : k = bit
  · subst h
    simp [hk]
  · simp [h, Ne.symm h]

/-! ## RESET -/

/-- The collaborators after RESET: the four it calls move as their own `reset()` moves them (R171), the others stay. -/
def PortStates.afterReset (p : PortStates) : PortStates :=
  { p with
    timer := Config.portAfter .timer .reset p.timer
    joypad := Config.portAfter .joypad .reset p.joypad
    serial := Config.portAfter .serial .reset p.serial
    dma := Config.portAfter .dma .reset p.dma }

/-- No call of RESET reads what an earlier one wrote, so the four are one update of the collaborators. -/
theorem exec_reset_eq (s : State) :
    exec .reset s = .next { s with
      space := AddressSpace.reset
      ports := s.ports.afterReset
      out := ⟨.none, false,
        [.call .timer .reset, .call .joypad .reset, .call .serial .reset, .call .dma .reset]⟩ } := rfl

/-- Settles O33: AddressSpace is the one of power-on (O49), and the rest is read off the next state. -/
theorem resetWipesAddressSpace : Obligations.ResetWipesAddressSpace := by
  unfold Obligations.ResetWipesAddressSpace
  intro s
  obtain ⟨hbytes, hie, hiflag, hkey1, hmapper⟩ := addressSpaceAtPowerOnAndAfterReset _ (.inr ⟨s, exec_reset_eq s⟩)
  exact ⟨_, exec_reset_eq s, hbytes, hie, hiflag, hkey1, hmapper, rfl, rfl, rfl, rfl, rfl, rfl, rfl, rfl, rfl⟩

/-! ## TICK -/

/-- Every meaning starts the response anew, so none of them sees whether that was done before. -/
theorem exec_begin (i : Instr) (s : State) : exec i s.begin = exec i s := by
  cases i <;> rfl

/-- Settles O34: TICK only starts the response anew. -/
theorem tickChangesNothing : Obligations.TickChangesNothing := by
  unfold Obligations.TickChangesNothing
  exact fun s => ⟨s.begin, exec_tick s, rfl, fun i => exec_begin i s⟩

end Sys2Proof.Machine
end

section
/-! PROOF. The NoiseChannel register port (R185 to R198): a word whose index selects no register, the trigger sequence as one
update of the channel, and what a read of each register returns. -/

namespace Sys2Proof.Machine

/-! ## Words whose index selects no register -/

/-- A word that selects no operation ends the step as `rejected` says, whatever the state holds (R96). -/
theorem step_of_decode_error {s : State} {w : CommandWord} {rest : List CommandWord} {e : DecodeError}
    (hw : s.pending = w :: rest) (hd : decode s.params w = .error e) : step s = rejected e := by
  simp only [step, fetch_cons s w rest hw, hd]

theorem decode_of_nwr {w : CommandWord} (h : (opField w).toNat = 0x10) (p : Params) :
    decode p w = nwrInstr p (aField w) (dataField w) := by
  simp only [decode, h]

theorem decode_of_nrd {w : CommandWord} (h : (opField w).toNat = 0x11) (p : Params) : decode p w = nrdInstr (aField w) := by
  simp only [decode, h]

theorem nwrInstr_of_four_le {index : BitVec 16} (h : 4 ≤ index.toNat) (p : Params) (v : Byte) :
    nwrInstr p index v = .error (.invalidIndex index) := by
  obtain ⟨k, hk⟩ := Nat.exists_eq_add_of_le' h
  simp only [nwrInstr, hk]

theorem nrdInstr_of_four_le {index : BitVec 16} (h : 4 ≤ index.toNat) : nrdInstr index = .error (.invalidIndex index) := by
  obtain ⟨k, hk⟩ := Nat.exists_eq_add_of_le' h
  simp only [nrdInstr, hk]

/-- Settles O9: both decoders of an index answer the same error from 4 on, and the step turns it into the fault. -/
theorem invalidRegisterIndexFaults : Obligations.InvalidRegisterIndexFaults := by
  unfold Obligations.InvalidRegisterIndexFaults
  intro s w rest hw hop hindex
  have hd : decode s.params w = .error (.invalidIndex (aField w)) := by
    rcases hop with hop | hop
    · rw [decode_of_nwr hop, nwrInstr_of_four_le hindex]
    · rw [decode_of_nrd hop, nrdInstr_of_four_le hindex]
  exact step_of_decode_error hw hd

/-! ## The views of the registers as arithmetic (R42, R43) -/

theorem eper_eq_mod (n : NoiseChannel) : eper n = n.nr1.toNat % 8 := by
  simp [eper]

theorem ivol_eq_div (n : NoiseChannel) : ivol n = n.nr1.toNat / 16 := by
  have := n.nr1.isLt
  simp [ivol, Nat.shiftRight_eq_div_pow]
  omega

theorem dcode_toNat (n : NoiseChannel) : (dcode n).toNat = n.nr2.toNat % 8 := by
  simp [dcode]

theorem isLengthStep_iff (p : Params) (step : BitVec 3) : isLengthStep p step = true ↔ step ∈ p.lengthSteps := by
  simp [isLengthStep]

/-- The table of R14 has the base period of each of the eight codes. -/
theorem basePeriod_table : ∀ code : BitVec 3,
    ([8, 16, 32, 48, 64, 80, 96, 112] : List Int)[code.toNat]? = some (basePeriod code : Int) := by decide

theorem envReload_eq_ite (n : NoiseChannel) :
    (envReload n : Int) = if n.nr1.toNat % 8 = 0 then 8 else (n.nr1.toNat % 8 : Int) := by
  rw [envReload, eper_eq_mod, ite_not, Nat.cast_ite]
  rfl

/-! ## The trigger sequence -/

section
variable {p : Params} {step : BitVec 3} {n : NoiseChannel}

theorem triggerLength_len_of_ne_zero (h : n.len ≠ 0) : (triggerLength p step n).len = n.len := by
  rw [triggerLength, if_neg h]

theorem triggerLength_len_of_lengthStep (h : n.len = 0) (hs : step ∈ p.lengthSteps) :
    (triggerLength p step n).len = 64 := by
  rw [triggerLength, if_pos h, if_pos ((isLengthStep_iff p step).mpr hs), Config.lenReload]

theorem triggerLength_len_of_not_lengthStep (h : n.len = 0) (hs : step ∉ p.lengthSteps) :
    (triggerLength p step n).len = 63 := by
  rw [triggerLength, if_pos h, if_neg (mt (isLengthStep_iff p step).mp hs), Config.lenReload]

/-- Step (2) reads and writes the length counter alone: neither register 3 nor the enabled flag matters to it. -/
theorem triggerLength_frame (v : Byte) (e : Bool) :
    triggerLength p step { n with nr3 := v, en := e } =
      { n with nr3 := v, en := e, len := (triggerLength p step n).len } := by
  unfold triggerLength
  split <;> rfl

end

/-- The seven steps of R186 are one update of the channel: no step reads what an earlier one wrote but the DAC check of step
(7), which finds the channel enabled by step (1). -/
theorem exec_nwr3Trig_eq (v : Byte) (s : State) :
    exec (.nwr3Trig v) s = .next { s with
      noise := { s.noise with
        nr3 := clearTrigger s.params v
        en := dacOn s.noise
        len := (triggerLength s.params s.fsStep s.noise).len
        div := basePeriod (dcode s.noise)
        envctr := envReload s.noise + (if s.fsStep = 7 then 1 else 0)
        vol := ivol s.noise
        lfsr := 0x7FFF }
      out := ⟨.none, false, []⟩ } := by
  rw [exec_nwr3Trig, execNwr3Trig, trigger, triggerEnable]
  dsimp only
  rw [triggerLength_frame]
  rfl

/-- Settles O38: every field is read off the one update that the seven steps are. -/
theorem triggerSetsTheChannel : Obligations.TriggerSetsTheChannel := by
  unfold Obligations.TriggerSetsTheChannel
  intro s v
  refine ⟨_, exec_nwr3Trig_eq v s, rfl, rfl, rfl, fun k _ => clearTrigger_getLsbD s.params v k, dacOn_iff s.noise,
    triggerLength_len_of_ne_zero, triggerLength_len_of_lengthStep, triggerLength_len_of_not_lengthStep, ?_,
    congrArg (· + _) (envReload_eq_ite s.noise), ivol_eq_div s.noise, rfl⟩
  rw [← dcode_toNat]
  exact basePeriod_table (dcode s.noise)

/-! ## Register reads -/

/-- Or-ing with BF sets every bit but LEN_EN_BIT, so the byte shows that bit of the register alone (R197). -/
theorem or_bf_eq_ite (r : Byte) : r ||| 0xBF = if r.getLsbD 6 then 0xFF else 0xBF := by
  have hmask : ∀ i < 8, (0xBF : Byte).getLsbD i = decide (i ≠ 6) := by decide
  have hones : ∀ i < 8, (0xFF : Byte).getLsbD i = true := by decide
  refine BitVec.eq_of_getLsbD_eq fun i hi => ?_
  rw [BitVec.getLsbD_or]
  by_cases hbit : i = 6
  · subst hbit
    cases r.getLsbD 6 <;> rfl
  · have hset : (0xBF : Byte).getLsbD i = true := by rw [hmask i hi, decide_eq_true hbit]
    rw [hset, Bool.or_true]
    split
    · exact (hones i hi).symm
    · exact hset.symm

/-- NRD of an index answers the stored register or-ed with its mask (R193), and changes the response alone. -/
theorem next_readReg {s : State} {index : Fin 4} {b : Byte} (h : storedReg s.noise index ||| readMask index = b) :
    Host.Outcome.next (s.begin.respond (.byte (readReg s.noise index))) =
      (.next { s with out := ⟨.byte b, false, []⟩ } : Host.Outcome State Fault Refusal) := by
  rw [readReg, h]
  rfl

/-- Settles O39: what the mask of each register leaves to be read. -/
theorem noiseRegisterReadsAreMasked : Obligations.NoiseRegisterReadsAreMasked := by
  unfold Obligations.NoiseRegisterReadsAreMasked
  intro s
  exact ⟨next_readReg (index := 0) BitVec.or_allOnes, next_readReg (index := 1) BitVec.or_zero,
    next_readReg (index := 2) BitVec.or_zero, next_readReg (index := 3) rfl,
    next_readReg (index := 3) (or_bf_eq_ite s.noise.nr3)⟩

end Sys2Proof.Machine
end

section
/-! PROOF. The NoiseChannel clocks and outputs (R210, R212, R214 to R217): the LFSR period as arithmetic on register 2, what
each clock does to the channel case by case, and what the output ports return. -/

namespace Sys2Proof.Machine

/-! ## The LFSR period -/

theorem cshift_eq_div (n : NoiseChannel) : cshift n = n.nr2.toNat / 16 := by
  have := n.nr2.isLt
  simp [cshift, Nat.shiftRight_eq_div_pow]
  omega

/-- BASE_PERIOD of R14 as a table of natural numbers, as the period counts (`basePeriod_table` is that of the divider). -/
theorem basePeriod_natTable : ∀ code : BitVec 3,
    [8, 16, 32, 48, 64, 80, 96, 112][code.toNat]? = some (basePeriod code) := by decide

/-- Settles O42: the two fields of register 2 select the table entry and the power of two. -/
theorem periodIsTheShiftedBasePeriod : Obligations.PeriodIsTheShiftedBasePeriod := by
  unfold Obligations.PeriodIsTheShiftedBasePeriod
  intro n
  refine ⟨?_, period_bounds n⟩
  rw [← dcode_toNat, basePeriod_natTable, ← cshift_eq_div]
  rfl

/-! ## Clocks of the channel -/

/-- A clock answers a state with the channel replaced and an empty response. -/
theorem next_setNoise {s : State} {n n' : NoiseChannel} (h : n = n') :
    Host.Outcome.next (s.begin.setNoise n) =
      (.next { s with noise := n', out := ⟨.none, false, []⟩ } : Host.Outcome State Fault Refusal) := by
  rw [h]
  rfl

section
variable {n : NoiseChannel}

theorem clockLength_of_stopped (h : n.nr3.getLsbD 6 = false ∨ n.len = 0) : clockLength n = n := by
  rw [clockLength, if_neg]
  rcases h with hoff | hzero
  · simp only [lenen, hoff, Bool.false_and, Bool.false_eq_true, not_false_iff]
  · simp [hzero]

/-- Above 1 the counter does not reach 0, so the enabled flag stays (R214). -/
theorem clockLength_of_one_lt (hen : n.nr3.getLsbD 6 = true) (hlen : 1 < n.len) :
    clockLength n = { n with len := n.len - 1 } := by
  have hrun : n.len ≠ 0 := by omega
  have hkeep : n.len - 1 ≠ 0 := by omega
  simp [clockLength, lenen, hen, hrun, hkeep]

theorem clockLength_of_eq_one (hen : n.nr3.getLsbD 6 = true) (hlen : n.len = 1) :
    clockLength n = { n with len := 0, en := false } := by
  simp [clockLength, lenen, hen, hlen]

end

/-- Settles O46: the three cases of R214. -/
theorem clockLengthCountsDown : Obligations.ClockLengthCountsDown := by
  unfold Obligations.ClockLengthCountsDown
  exact fun s => ⟨fun h => next_setNoise (clockLength_of_stopped h),
    fun hen hlen => next_setNoise (clockLength_of_one_lt hen hlen),
    fun hen hlen => next_setNoise (clockLength_of_eq_one hen hlen)⟩

/-! ## The envelope -/

section
variable {n : NoiseChannel}

theorem edir_of_up (h : n.nr1.getLsbD 3 = true) : edir n = 1 := if_pos h

theorem edir_of_down (h : n.nr1.getLsbD 3 = false) : edir n = -1 := by
  rw [edir, h]
  rfl

/-- A step that lands on `v` in 0..15 is taken. -/
theorem stepVolume_of_le {v : Nat} (h : n.vol + edir n = v) (hv : v ≤ 15) : stepVolume n = v := by
  have hmax : (v : Int) ≤ Config.maxVolume := by unfold Config.maxVolume; omega
  simp [stepVolume, h, hmax]

/-- A step that leaves 0..15 is discarded. -/
theorem stepVolume_of_out_of_range (h : n.vol + edir n < 0 ∨ 15 < n.vol + edir n) : stepVolume n = n.vol := by
  unfold stepVolume Config.maxVolume
  exact if_neg (by omega)

/-- The edges of R215 in each direction; a volume above 15, which no run reaches, is kept unless the step lands on 15. -/
theorem stepVolume_of_edge
    (h : (n.nr1.getLsbD 3 = true ∧ 15 ≤ n.vol) ∨ (n.nr1.getLsbD 3 = false ∧ (n.vol = 0 ∨ 16 < n.vol))) :
    stepVolume n = n.vol := by
  apply stepVolume_of_out_of_range
  rcases h with ⟨hdir, hvol⟩ | ⟨hdir, hvol⟩
  · rw [edir_of_up hdir]
    omega
  · rw [edir_of_down hdir]
    omega

theorem clockEnvelope_of_one_lt (h : 1 < n.envctr) : clockEnvelope n = { n with envctr := n.envctr - 1 } :=
  if_neg (by omega)

/-- A period of 0 reloads the counter with 8 and leaves the volume (R215). -/
theorem clockEnvelope_of_period_zero (hdue : n.envctr ≤ 1) (hper : n.nr1.toNat % 8 = 0) :
    clockEnvelope n = { n with envctr := 8 } := by
  have hnow : n.envctr - 1 ≤ 0 := by omega
  simp [clockEnvelope, hnow, envReload_eq_ite, eper_eq_mod, hper]

/-- Another period reloads the counter with itself and steps the volume (R215). -/
theorem clockEnvelope_of_period_ne_zero (hdue : n.envctr ≤ 1) (hper : n.nr1.toNat % 8 ≠ 0) :
    clockEnvelope n = { n with envctr := (n.nr1.toNat % 8 : Nat), vol := stepVolume n } := by
  have hnow : n.envctr - 1 ≤ 0 := by omega
  simp [clockEnvelope, hnow, envReload_eq_ite, eper_eq_mod, hper]

end

/-- NCLKENV with a due counter and a nonzero period, by what its volume step gives. -/
theorem exec_nclkenv_of_stepVolume {s : State} {v : Nat} (hdue : s.noise.envctr ≤ 1) (hper : s.noise.nr1.toNat % 8 ≠ 0)
    (hv : stepVolume s.noise = v) :
    exec .nclkenv s = .next { s with
      noise := { s.noise with envctr := (s.noise.nr1.toNat % 8 : Nat), vol := v }, out := ⟨.none, false, []⟩ } :=
  next_setNoise (hv ▸ clockEnvelope_of_period_ne_zero hdue hper)

/-- Settles O47: counting, the reload without a period, and the volume step up, down and discarded. -/
theorem clockEnvelopeStepsTheVolume : Obligations.ClockEnvelopeStepsTheVolume := by
  unfold Obligations.ClockEnvelopeStepsTheVolume
  intro s
  refine ⟨fun h => next_setNoise (clockEnvelope_of_one_lt h),
    fun hdue hper => next_setNoise (clockEnvelope_of_period_zero hdue hper),
    fun hdue hper hup hvol => ?_, fun hdue hper hdown hpos hvol => ?_,
    fun hdue hper hedge => exec_nclkenv_of_stepVolume hdue hper (stepVolume_of_edge hedge)⟩
  · refine exec_nclkenv_of_stepVolume hdue hper (stepVolume_of_le ?_ hvol)
    rw [edir_of_up hup, Nat.cast_succ]
  · refine exec_nclkenv_of_stepVolume hdue hper (stepVolume_of_le ?_ (by omega))
    rw [edir_of_down hdown]
    omega

/-! ## Outputs and the frame step -/

section
variable {n : NoiseChannel}

theorem sampleOf_of_disabled (hen : n.en = false) : sampleOf n = 0 := by
  simp [sampleOf, hen]

theorem sampleOf_of_low (hen : n.en = true) (hbit : n.lfsr.getLsbD 0 = false) : sampleOf n = n.vol := by
  simp only [sampleOf, hen, hbit, if_true, Bool.false_eq_true, if_false]

theorem sampleOf_of_high (hen : n.en = true) (hbit : n.lfsr.getLsbD 0 = true) : sampleOf n = 0 := by
  simp only [sampleOf, hen, hbit, if_true]

end

/-- NSAMPLE changes the response alone. -/
theorem exec_nsample_of_sampleOf {s : State} {v : Nat} (h : sampleOf s.noise = v) :
    exec .nsample s = .next { s with out := ⟨.sample v, false, []⟩ } := by
  rw [exec_nsample, execNsample, h]
  rfl

/-- Settles O48: NENABLED and FS by their meanings, NSAMPLE by the three cases of the gate. -/
theorem outputsAndTheFrameStep : Obligations.OutputsAndTheFrameStep := by
  unfold Obligations.OutputsAndTheFrameStep
  exact fun s k => ⟨rfl, fun hen => exec_nsample_of_sampleOf (sampleOf_of_disabled hen),
    fun hen hbit => exec_nsample_of_sampleOf (sampleOf_of_low hen hbit),
    fun hen hbit => exec_nsample_of_sampleOf (sampleOf_of_high hen hbit), rfl⟩

end Sys2Proof.Machine
end

section
/-! PROOF. The fault MissingBackend (R232, R235): the mapper windows are the addresses that dispatch to ROM or EXTRAM, in both
directions, and no half of an access attaches a mapper. -/

namespace Sys2Proof.Machine

/-! ## The dispatch of a mapper window -/

theorem inMapperWindow_iff (a : Addr) :
    inMapperWindow a = true ↔ a.toNat < 0x8000 ∨ (0xA000 ≤ a.toNat ∧ a.toNat < 0xC000) := by
  simp [inMapperWindow]

/-- No branch of the I/O block's sub-dispatch leads to the mapper (R69). -/
theorem decodeIoRead_ne_mapper (p : Params) (a : Addr) : ¬ (decodeIoRead p a = .rom ∨ decodeIoRead p a = .extram) := by
  unfold decodeIoRead
  split_ifs <;> decide

/-- A read goes to the mapper exactly from a mapper window (R121). -/
theorem decodeRead_mapper_iff (p : Params) (a : Addr) :
    (decodeRead p a = .rom ∨ decodeRead p a = .extram) ↔ inMapperWindow a = true := by
  have hio := decodeIoRead_ne_mapper p a
  rw [inMapperWindow_iff]
  unfold decodeRead
  split_ifs <;> simp only [hio, or_false, or_true, true_iff, false_iff] <;> omega

/-- So does a write: the DMA case lies in the I/O block, outside the windows (R70, R121). -/
theorem decodeWrite_mapper_iff (p : Params) (a : Addr) :
    (decodeWrite p a = .region .rom ∨ decodeWrite p a = .region .extram) ↔ inMapperWindow a = true := by
  unfold decodeWrite
  split_ifs with hdma
  · have hout : ¬ inMapperWindow a = true := by
      rw [inMapperWindow_iff]
      omega
    simp [hout]
  · simpa only [WriteDest.region.injEq] using decodeRead_mapper_iff p a

/-! ## Complete accesses while no mapper is attached -/

theorem memRead_eq_error_iff_window (a : Addr) (s : State) (f : Fault) :
    memRead a s = .error f ↔ inMapperWindow a = true ∧ s.space.mapper = none ∧ f = .missingBackend a := by
  rw [memRead_eq_error, decodeRead_mapper_iff]

theorem memWrite_eq_error_iff_window (a : Addr) (v : Byte) (s : State) (f : Fault) :
    memWrite a v s = .error f ↔ inMapperWindow a = true ∧ s.space.mapper = none ∧ f = .missingBackend a := by
  rw [memWrite_eq_error, decodeWrite_mapper_iff]

theorem Quiet.mapper_eq_none {s t : State} (h : Quiet s t) (hs : s.space.mapper = none) : t.space.mapper = none := by
  rw [← Option.isNone_iff_eq_none, ← Option.not_isSome, h.mapper, hs]
  rfl

/-- No write attaches a mapper. -/
theorem memWrite_mapper_eq_none {a : Addr} {v : Byte} {s t : State} (h : memWrite a v s = .ok t)
    (hs : s.space.mapper = none) : t.space.mapper = none := by
  obtain ⟨l, rfl⟩ | rfl | rfl | rfl | hquiet := writeRegion_cases _ a v s t h
  · rwa [State.setByte_mapper]
  · exact hs
  · exact hs
  · exact hs
  · exact hquiet.mapper_eq_none hs

/-! ## One row of each operation -/

section
variable {s : State}

theorem exec_readInstr_of_no_mapper (hs : s.space.mapper = none) {r : Region} (hr : r = .rom ∨ r = .extram) (a : Addr) :
    exec (readInstr r a) s = .fault (.missingBackend a) := by
  rw [exec_readInstr, finishByte_eq_fault, readRegion_eq_error]
  exact ⟨hr, hs, rfl⟩

theorem exec_peekInstr_of_no_mapper (hs : s.space.mapper = none) {r : Region} (hr : r = .rom ∨ r = .extram) (a : Addr) :
    exec (peekInstr r a) s = .fault (.missingBackend a) := by
  rw [exec_peekInstr, finishByte_eq_fault, peekRegion_eq_error]
  exact ⟨hr, hs, rfl⟩

theorem exec_writeInstr_of_no_mapper (hs : s.space.mapper = none) {d : WriteDest}
    (hd : d = .region .rom ∨ d = .region .extram) (a : Addr) (v : Byte) :
    exec (writeInstr d a v) s = .fault (.missingBackend a) := by
  rw [exec_writeInstr, finish_eq_fault, writeRegion_eq_error]
  exact ⟨hd, hs, rfl⟩

/-! ## RD16 and WR16 by the half that lies in a window -/

theorem execRd16_of_first_in_window (hs : s.space.mapper = none) {a : Addr} (ha : inMapperWindow a = true) :
    execRd16 a s = .fault (.missingBackend a) :=
  execRd16_of_first_fault ((memRead_eq_error_iff_window a s.begin _).mpr ⟨ha, hs, rfl⟩)

/-- The first read completes outside the windows and leaves the second without a mapper. -/
theorem execRd16_of_second_in_window (hs : s.space.mapper = none) {a : Addr} (ha : inMapperWindow a = false)
    (hnext : inMapperWindow (a + 1) = true) : execRd16 a s = .fault (.missingBackend (a + 1)) := by
  cases hfirst : memRead a s.begin with
  | error f =>
    obtain ⟨hin, -, -⟩ := (memRead_eq_error_iff_window a s.begin f).mp hfirst
    exact absurd hin (Bool.eq_false_iff.mp ha)
  | ok r =>
    obtain ⟨lo, t⟩ := r
    have ht : t.space.mapper = none := (memRead_quiet a s.begin t lo hfirst).mapper_eq_none hs
    exact execRd16_of_second_fault hfirst ((memRead_eq_error_iff_window (a + 1) t.begin _).mpr ⟨hnext, ht, rfl⟩)

theorem execWr16_of_first_in_window (hs : s.space.mapper = none) {a : Addr} (ha : inMapperWindow a = true) (x : Half) :
    execWr16 a x s = .fault (.missingBackend a) :=
  execWr16_of_first_fault ((memWrite_eq_error_iff_window a _ s.begin _).mpr ⟨ha, hs, rfl⟩)

/-- The first write completes outside the windows and leaves the second without a mapper. -/
theorem execWr16_of_second_in_window (hs : s.space.mapper = none) {a : Addr} (ha : inMapperWindow a = false)
    (hnext : inMapperWindow (a + 1) = true) (x : Half) : execWr16 a x s = .fault (.missingBackend (a + 1)) := by
  cases hfirst : memWrite a (lowByte x) s.begin with
  | error f =>
    obtain ⟨hin, -, -⟩ := (memWrite_eq_error_iff_window a _ s.begin f).mp hfirst
    exact absurd hin (Bool.eq_false_iff.mp ha)
  | ok t =>
    have ht : t.space.mapper = none := memWrite_mapper_eq_none hfirst hs
    have hsecond : memWrite (nextAddr a) (highByte x) t.begin = .error (.missingBackend (a + 1)) :=
      (memWrite_eq_error_iff_window (a + 1) _ t.begin _).mpr ⟨hnext, ht, rfl⟩
    rw [execWr16_of_first_ok hfirst, hsecond, finish_error, mapNext_fault]

end

/-- Settles O16: the single accesses region by region, the 16-bit ones by their first half and, outside the windows, by their
second. -/
theorem mapperWindowWithoutMapperFaults : Obligations.MapperWindowWithoutMapperFaults := by
  unfold Obligations.MapperWindowWithoutMapperFaults
  intro s a v x hs
  exact ⟨exec_readInstr_of_no_mapper (r := .rom) hs (.inl rfl) a,
    exec_readInstr_of_no_mapper (r := .extram) hs (.inr rfl) a,
    exec_writeInstr_of_no_mapper (d := .region .rom) hs (.inl rfl) a v,
    exec_writeInstr_of_no_mapper (d := .region .extram) hs (.inr rfl) a v,
    exec_peekInstr_of_no_mapper (r := .rom) hs (.inl rfl) a,
    exec_peekInstr_of_no_mapper (r := .extram) hs (.inr rfl) a,
    fun ha => ⟨execRd16_of_first_in_window hs ha, execWr16_of_first_in_window hs ha x⟩,
    fun ha hnext => ⟨execRd16_of_second_in_window hs ha hnext, execWr16_of_second_in_window hs ha hnext x⟩⟩

end Sys2Proof.Machine
end

section
/-! PROOF. The address dispatch and the decoder (R90 to R94, R121): the well-formed rows of an address are exactly the ones
the dispatch selects, so decoding a well-formed operation's word gives the operation back, and whatever a word decodes to is
well-formed. -/

namespace Sys2Proof

/-! ## The ranges as propositions -/

@[simp] theorem within_iff (lo hi : Nat) (a : Addr) : within lo hi a = true ↔ lo ≤ a.toNat ∧ a.toNat < hi := by
  simp [within]

theorem inIoBlock_iff (a : Addr) : inIoBlock a = true ↔ 0xFF00 ≤ a.toNat ∧ a.toNat < 0xFF80 := within_iff _ _ a

theorem isIf_iff (p : Params) (a : Addr) : isIf p a = true ↔ inIoBlock a = true ∧ a = p.ifAddr := by
  simp [isIf]

theorem isKey1_iff (p : Params) (a : Addr) :
    isKey1 p a = true ↔ inIoBlock a = true ∧ a = p.key1Addr ∧ a ≠ p.ifAddr := by
  simp [isKey1, and_assoc]

theorem pastRegisters_iff (p : Params) (a : Addr) :
    pastRegisters p a = true ↔ inIoBlock a = true ∧ a ≠ p.ifAddr ∧ a ≠ p.key1Addr := by
  simp [pastRegisters, and_assoc]

theorem isSound_iff (p : Params) (a : Addr) :
    isSound p a = true ↔ pastRegisters p a = true ∧ 0xFF10 ≤ a.toNat ∧ a.toNat < 0xFF40 := by
  simp [isSound]

theorem isVideo_iff (p : Params) (a : Addr) :
    isVideo p a = true ↔ pastRegisters p a = true ∧ 0xFF40 ≤ a.toNat ∧ a.toNat < 0xFF4C := by
  simp [isVideo]

/-- A handler is registered only in [0xFF00, 0xFF08) (R30). -/
theorem lowIoHandler_isSome_iff (p : Params) (a : Addr) :
    (lowIoHandler p a).isSome = true ↔
      (0xFF00 ≤ a.toNat ∧ a.toNat < 0xFF08) ∧ (p.lowIoMap.toList.getD (a.toNat - 0xFF00) none).isSome = true := by
  unfold lowIoHandler
  split
  · next h => simp only [h, and_self, true_and]
  · next h => simp only [h, false_and, Option.isSome_none, Bool.false_eq_true]

theorem isLowio_iff (p : Params) (a : Addr) :
    isLowio p a = true ↔ pastRegisters p a = true ∧ (lowIoHandler p a).isSome = true := by
  rw [lowIoHandler_isSome_iff, isLowio, Bool.and_eq_true, Bool.and_eq_true, within_iff, and_assoc]

theorem isUnmapped_iff (p : Params) (a : Addr) :
    isUnmapped p a = true ↔
      pastRegisters p a = true ∧ ¬ isSound p a = true ∧ ¬ isVideo p a = true ∧ ¬ isLowio p a = true := by
  simp [isUnmapped, and_assoc]

theorem isDma_iff (p : Params) (a : Addr) : isDma p a = true ↔ pastRegisters p a = true ∧ a = p.dmaAddr := by
  simp [isDma]

/-! ## Reads -/

/-- In the I/O block the dispatch is the sub-dispatch. -/
theorem decodeRead_of_inIoBlock (p : Params) {a : Addr} (h : inIoBlock a = true) : decodeRead p a = decodeIoRead p a := by
  rw [inIoBlock_iff] at h
  unfold decodeRead
  repeat rw [if_neg (by omega)]
  exact if_pos h.2

/-- The row of a region is well-formed only at the addresses that the dispatch sends there: each range determines the branch
taken, in the I/O block with the priority of R69. -/
theorem decodeRead_of_wellFormed {p : Params} {r : Region} {a : Addr} (h : (readInstr r a).wellFormed p = true) :
    decodeRead p a = r := by
  cases r
  case rom | vram | extram | wram0 | wram1 | echo | oam | unusable | hram =>
    obtain ⟨lo, hi⟩ := (within_iff _ _ a).mp h
    unfold decodeRead
    repeat rw [if_neg (by omega)]
    exact if_pos hi
  case ie =>
    obtain rfl : a = 0xFFFF := eq_of_beq h
    rfl
  case ifReg =>
    obtain ⟨hio, ha⟩ := (isIf_iff p a).mp h
    rw [decodeRead_of_inIoBlock p hio, decodeIoRead, if_pos ha]
  case key1 =>
    obtain ⟨hio, ha, hif⟩ := (isKey1_iff p a).mp h
    rw [decodeRead_of_inIoBlock p hio, decodeIoRead, if_neg hif, if_pos ha]
  case sound =>
    obtain ⟨hpast, hrange⟩ := (isSound_iff p a).mp h
    obtain ⟨hio, hif, hkey⟩ := (pastRegisters_iff p a).mp hpast
    rw [decodeRead_of_inIoBlock p hio, decodeIoRead, if_neg hif, if_neg hkey, if_pos hrange]
  case video =>
    obtain ⟨hpast, hrange⟩ := (isVideo_iff p a).mp h
    obtain ⟨hio, hif, hkey⟩ := (pastRegisters_iff p a).mp hpast
    rw [decodeRead_of_inIoBlock p hio, decodeIoRead, if_neg hif, if_neg hkey, if_neg (by omega), if_pos hrange]
  case lowio =>
    obtain ⟨hpast, hsome⟩ := (isLowio_iff p a).mp h
    obtain ⟨hio, hif, hkey⟩ := (pastRegisters_iff p a).mp hpast
    obtain ⟨hrange, -⟩ := (lowIoHandler_isSome_iff p a).mp hsome
    rw [decodeRead_of_inIoBlock p hio, decodeIoRead, if_neg hif, if_neg hkey, if_neg (by omega), if_neg (by omega),
      if_pos hsome]
  case ioUnmapped =>
    obtain ⟨hpast, hsound, hvideo, hlowio⟩ := (isUnmapped_iff p a).mp h
    obtain ⟨hio, hif, hkey⟩ := (pastRegisters_iff p a).mp hpast
    rw [isSound_iff, not_and] at hsound
    rw [isVideo_iff, not_and] at hvideo
    rw [isLowio_iff, not_and] at hlowio
    rw [decodeRead_of_inIoBlock p hio, decodeIoRead, if_neg hif, if_neg hkey, if_neg (hsound hpast), if_neg (hvideo hpast),
      if_neg (hlowio hpast)]

/-- The branch taken gives back the condition of its row. -/
theorem wellFormed_readInstr_decodeIoRead (p : Params) {a : Addr} (hio : inIoBlock a = true) :
    (readInstr (decodeIoRead p a) a).wellFormed p = true := by
  unfold decodeIoRead
  split_ifs with hif hkey hsound hvideo hlowio
  · exact (isIf_iff p a).mpr ⟨hio, hif⟩
  · exact (isKey1_iff p a).mpr ⟨hio, hkey, hif⟩
  all_goals have hpast := (pastRegisters_iff p a).mpr ⟨hio, hif, hkey⟩
  · exact (isSound_iff p a).mpr ⟨hpast, hsound⟩
  · exact (isVideo_iff p a).mpr ⟨hpast, hvideo⟩
  · exact (isLowio_iff p a).mpr ⟨hpast, hlowio⟩
  · refine (isUnmapped_iff p a).mpr ⟨hpast, ?_, ?_, ?_⟩
    · exact mt (fun h => ((isSound_iff p a).mp h).2) hsound
    · exact mt (fun h => ((isVideo_iff p a).mp h).2) hvideo
    · exact mt (fun h => ((isLowio_iff p a).mp h).2) hlowio

/-- The ranges of the map cover the address space (R61). -/
theorem exists_wellFormed_readInstr (p : Params) (a : Addr) : ∃ r, (readInstr r a).wellFormed p = true := by
  have hmax : a.toNat < 65536 := a.isLt
  have hcover : a.toNat < 0x8000 ∨ (0x8000 ≤ a.toNat ∧ a.toNat < 0xA000) ∨ (0xA000 ≤ a.toNat ∧ a.toNat < 0xC000) ∨
      (0xC000 ≤ a.toNat ∧ a.toNat < 0xD000) ∨ (0xD000 ≤ a.toNat ∧ a.toNat < 0xE000) ∨
      (0xE000 ≤ a.toNat ∧ a.toNat < 0xFE00) ∨ (0xFE00 ≤ a.toNat ∧ a.toNat < 0xFEA0) ∨
      (0xFEA0 ≤ a.toNat ∧ a.toNat < 0xFF00) ∨ (0xFF00 ≤ a.toNat ∧ a.toNat < 0xFF80) ∨
      (0xFF80 ≤ a.toNat ∧ a.toNat < 0xFFFF) ∨ a.toNat = 0xFFFF := by omega
  rcases hcover with h | h | h | h | h | h | h | h | h | h | h
  · exact ⟨.rom, (within_iff _ _ a).mpr ⟨Nat.zero_le _, h⟩⟩
  · exact ⟨.vram, (within_iff _ _ a).mpr h⟩
  · exact ⟨.extram, (within_iff _ _ a).mpr h⟩
  · exact ⟨.wram0, (within_iff _ _ a).mpr h⟩
  · exact ⟨.wram1, (within_iff _ _ a).mpr h⟩
  · exact ⟨.echo, (within_iff _ _ a).mpr h⟩
  · exact ⟨.oam, (within_iff _ _ a).mpr h⟩
  · exact ⟨.unusable, (within_iff _ _ a).mpr h⟩
  · exact ⟨_, wellFormed_readInstr_decodeIoRead p ((inIoBlock_iff a).mpr h)⟩
  · exact ⟨.hram, (within_iff _ _ a).mpr h⟩
  · exact ⟨.ie, beq_of_eq (BitVec.eq_of_toNat_eq h)⟩

theorem wellFormed_readInstr_decodeRead (p : Params) (a : Addr) : (readInstr (decodeRead p a) a).wellFormed p = true := by
  obtain ⟨r, hr⟩ := exists_wellFormed_readInstr p a
  rwa [decodeRead_of_wellFormed hr]

/-- R121: the RD rows well-formed at an address are the one that the dispatch selects. -/
theorem wellFormed_readInstr_iff (p : Params) (r : Region) (a : Addr) :
    (readInstr r a).wellFormed p = true ↔ decodeRead p a = r :=
  ⟨decodeRead_of_wellFormed, fun h => h ▸ wellFormed_readInstr_decodeRead p a⟩

/-! ## Peeks and writes -/

theorem wellFormed_peekInstr (p : Params) (r : Region) (a : Addr) :
    (peekInstr r a).wellFormed p = (readInstr r a).wellFormed p := by
  cases r <;> rfl

/-- Off the DMA case a write row asks what the read row of its region asks (R70). -/
theorem wellFormed_writeInstr_region {p : Params} {a : Addr} (h : ¬ isDma p a = true) (r : Region) (v : Byte) :
    (writeInstr (.region r) a v).wellFormed p = (readInstr r a).wellFormed p := by
  rw [Bool.not_eq_true] at h
  cases r
  case lowio | sound | video | ioUnmapped =>
    simp only [writeInstr, readInstr, Instr.wellFormed, h, Bool.not_false, Bool.and_true]
  all_goals rfl

/-- In the DMA case no row but that of DMA is well-formed: the ranges exclude it, and the other rows lie elsewhere. -/
theorem eq_dma_of_wellFormed {p : Params} {a : Addr} (h : isDma p a = true) {d : WriteDest} {v : Byte}
    (hd : (writeInstr d a v).wellFormed p = true) : d = .dma := by
  obtain ⟨hpast, -⟩ := (isDma_iff p a).mp h
  obtain ⟨hio, hif, hkey⟩ := (pastRegisters_iff p a).mp hpast
  rw [inIoBlock_iff] at hio
  rcases d with _ | r
  · rfl
  · exfalso
    cases r
    case lowio | sound | video | ioUnmapped =>
      simp only [writeInstr, Instr.wellFormed, h, Bool.not_true, Bool.and_false, Bool.false_eq_true] at hd
    case ifReg => exact hif ((isIf_iff p a).mp hd).2
    case key1 => exact hkey ((isKey1_iff p a).mp hd).2.1
    case ie =>
      obtain rfl : a = 0xFFFF := eq_of_beq hd
      exact absurd hio (by decide)
    all_goals
      obtain ⟨lo, hi⟩ := (within_iff _ _ a).mp hd
      omega

/-- The write dispatch is DMA in the DMA case (R70, R121). -/
theorem decodeWrite_of_isDma {p : Params} {a : Addr} (h : isDma p a = true) : decodeWrite p a = .dma := by
  obtain ⟨hpast, hdma⟩ := (isDma_iff p a).mp h
  obtain ⟨hio, hif, hkey⟩ := (pastRegisters_iff p a).mp hpast
  obtain ⟨lo, hi⟩ := (inIoBlock_iff a).mp hio
  exact if_pos ⟨lo, hi, hif, hkey, hdma⟩

/-- Everywhere else it is the read dispatch. -/
theorem decodeWrite_of_not_isDma {p : Params} {a : Addr} (h : ¬ isDma p a = true) :
    decodeWrite p a = .region (decodeRead p a) := by
  rw [isDma_iff, pastRegisters_iff, inIoBlock_iff] at h
  exact if_neg fun ⟨lo, hi, hif, hkey, hdma⟩ => h ⟨⟨⟨lo, hi⟩, hif, hkey⟩, hdma⟩

/-- R70, R121: the WR rows well-formed at an address are the one that the dispatch selects. -/
theorem wellFormed_writeInstr_iff (p : Params) (d : WriteDest) (a : Addr) (v : Byte) :
    (writeInstr d a v).wellFormed p = true ↔ decodeWrite p a = d := by
  by_cases h : isDma p a = true
  · rw [decodeWrite_of_isDma h]
    exact ⟨fun hd => (eq_dma_of_wellFormed h hd).symm, fun hd => hd ▸ h⟩
  · rw [decodeWrite_of_not_isDma h]
    rcases d with _ | r
    · exact ⟨fun hd => absurd hd h, nofun⟩
    · rw [wellFormed_writeInstr_region h, wellFormed_readInstr_iff, WriteDest.region.injEq]

/-- Settles O5: the destination is the one the dispatch selects. -/
theorem everyAddressHasExactlyOneDestination : Obligations.EveryAddressHasExactlyOneDestination := by
  unfold Obligations.EveryAddressHasExactlyOneDestination
  intro p a
  simp only [wellFormed_readInstr_iff, wellFormed_writeInstr_iff]
  exact ⟨⟨_, rfl, fun _ => Eq.symm⟩, fun _ => ⟨_, rfl, fun _ => Eq.symm⟩⟩

/-- Settles O21: in the video range no case of R69 before VIDEO claims the address, and the DMA case is that address
alone. -/
theorem dmaAddressIsDmaOnWritesOnly : Obligations.DmaAddressIsDmaOnWritesOnly := by
  unfold Obligations.DmaAddressIsDmaOnWritesOnly
  intro p lo hi hif hkey
  have hpast : pastRegisters p p.dmaAddr = true :=
    (pastRegisters_iff p _).mpr ⟨(inIoBlock_iff _).mpr ⟨by omega, by omega⟩, hif, hkey⟩
  refine ⟨decodeWrite_of_isDma ((isDma_iff p _).mpr ⟨hpast, rfl⟩), ?_, fun a ha => ?_⟩
  · exact (wellFormed_readInstr_iff p .video _).mp ((isVideo_iff p _).mpr ⟨hpast, lo, hi⟩)
  · exact decodeWrite_of_not_isDma fun h => ha ((isDma_iff p a).mp h).2

/-! ## The default parameters -/

/-- The default LOWIO_MAP names a handler for each of its addresses but 0xFF03 (D6). -/
theorem lowIoHandler_default_isSome_iff (a : Addr) :
    (lowIoHandler Params.default a).isSome = true ↔ 0xFF00 ≤ a.toNat ∧ a.toNat < 0xFF08 ∧ a.toNat ≠ 0xFF03 := by
  have hmap : ∀ k < 8, (Params.default.lowIoMap.toList.getD k none).isSome = decide (k ≠ 3) := by decide
  rw [lowIoHandler_isSome_iff, and_assoc, and_congr_right_iff]
  intro lo
  rw [and_congr_right_iff]
  intro hi
  rw [hmap _ (by omega), decide_eq_true_iff]
  omega

theorem decodeRead_default_unmapped_iff (a : Addr) :
    decodeRead Params.default a = .ioUnmapped ↔
      a = 0xFF03 ∨ (0xFF08 ≤ a.toNat ∧ a.toNat < 0xFF0F) ∨ a = 0xFF4C ∨ (0xFF4E ≤ a.toNat ∧ a.toNat < 0xFF80) := by
  have hrow := wellFormed_readInstr_iff Params.default .ioUnmapped a
  rw [← hrow]
  change isUnmapped Params.default a = true ↔ _
  rw [isUnmapped_iff, isSound_iff, isVideo_iff, isLowio_iff, pastRegisters_iff, inIoBlock_iff,
    lowIoHandler_default_isSome_iff]
  simp only [← BitVec.toNat_inj, Params.default, ne_eq, BitVec.reduceToNat]
  omega

/-- Settles O6: the DMA-trigger address is the only one whose write dispatch differs, and it is mapped both ways. -/
theorem defaultUnmappedAddresses : Obligations.DefaultUnmappedAddresses := by
  unfold Obligations.DefaultUnmappedAddresses
  intro a
  rw [← decodeRead_default_unmapped_iff]
  refine ⟨Iff.rfl, ?_⟩
  obtain ⟨hwrite, hread, hother⟩ :=
    dmaAddressIsDmaOnWritesOnly Params.default (by decide) (by decide) (by decide) (by decide)
  by_cases ha : a = Params.default.dmaAddr
  · rw [ha, hwrite, hread]
    decide
  · rw [hother a ha, WriteDest.region.injEq]

end Sys2Proof
end

section
/-! PROOF. The decoder and the encoder (R90 to R97, R100): operations are classified by what they do, and each class is
decoded from its word. -/

namespace Sys2Proof.Machine

/-! ## The operations of NoiseChannel -/

/-- The operations of NoiseChannel (R92); those of AddressSpace are `AddressSpaceOp`. -/
inductive NoiseOp : Instr → Prop where
  | nwr0 (v : Byte) : NoiseOp (.nwr0 v)
  | nwr1 (v : Byte) : NoiseOp (.nwr1 v)
  | nwr2 (v : Byte) : NoiseOp (.nwr2 v)
  | nwr3 (v : Byte) : NoiseOp (.nwr3 v)
  | nwr3Trig (v : Byte) : NoiseOp (.nwr3Trig v)
  | nrd0 : NoiseOp .nrd0
  | nrd1 : NoiseOp .nrd1
  | nrd2 : NoiseOp .nrd2
  | nrd3 : NoiseOp .nrd3
  | nadv (cycles : Nat) : NoiseOp (.nadv cycles)
  | nclklen : NoiseOp .nclklen
  | nclkenv : NoiseOp .nclkenv
  | nenabled : NoiseOp .nenabled
  | nsample : NoiseOp .nsample
  | fs (step : BitVec 3) : NoiseOp (.fs step)

theorem noiseOp_of_le_op (i : Instr) (h : 0x10 ≤ (opField (encode i)).toNat) : NoiseOp i := by
  cases i
  case nwr0 v => exact .nwr0 v
  case nwr1 v => exact .nwr1 v
  case nwr2 v => exact .nwr2 v
  case nwr3 v => exact .nwr3 v
  case nwr3Trig v => exact .nwr3Trig v
  case nrd0 => exact .nrd0
  case nrd1 => exact .nrd1
  case nrd2 => exact .nrd2
  case nrd3 => exact .nrd3
  case nadv cycles => exact .nadv cycles
  case nclklen => exact .nclklen
  case nclkenv => exact .nclkenv
  case nenabled => exact .nenabled
  case nsample => exact .nsample
  case fs step => exact .fs step
  all_goals simp [encode] at h

/-- Every operation belongs to one of the two components (R92). -/
theorem addressSpaceOp_or_noiseOp (i : Instr) : AddressSpaceOp i ∨ NoiseOp i :=
  (Nat.lt_or_ge (opField (encode i)).toNat 0x10).imp (addressSpaceOp_of_op_lt i) (noiseOp_of_le_op i)

/-! ## The word of an operation -/

theorem encode_readInstr (r : Region) (a : Addr) : encode (readInstr r a) = word 0x00 a 0 := by
  cases r <;> rfl

theorem encode_writeInstr (d : WriteDest) (a : Addr) (v : Byte) :
    encode (writeInstr d a v) = word 0x01 a (v.setWidth 16) := by
  rcases d with _ | r
  · rfl
  · cases r <;> rfl

theorem encode_peekInstr (r : Region) (a : Addr) : encode (peekInstr r a) = word 0x02 a 0 := by
  cases r <;> rfl

/-- A well-formed AddressSpace operation is what its word decodes to: for the byte accesses the dispatch finds the row, and
an interrupt bit fits its field. -/
theorem AddressSpaceOp.decode_encode {p : Params} {i : Instr} (hi : AddressSpaceOp i) (h : i.wellFormed p = true) :
    decode p (encode i) = .ok i := by
  cases hi with
  | read r a =>
    rw [encode_readInstr, ← (wellFormed_readInstr_iff p r a).mp h]
    simp [decode]
  | write d a v =>
    rw [encode_writeInstr, ← (wellFormed_writeInstr_iff p d a v).mp h]
    simp [decode]
  | peek r a =>
    rw [wellFormed_peekInstr, wellFormed_readInstr_iff] at h
    rw [encode_peekInstr, ← h]
    simp [decode]
  | reqint bit =>
    have hbit : bit < 65536 := of_decide_eq_true h
    simp [encode, decode, Nat.mod_eq_of_lt hbit]
  | rd16 | wr16 | reset | tick | loadcart => simp [encode, decode]

/-- So is a well-formed NoiseChannel operation: the index and the trigger bit select the row of a register write, and a cycle
count is joined from its halves. -/
theorem NoiseOp.decode_encode {p : Params} {i : Instr} (hi : NoiseOp i) (h : i.wellFormed p = true) :
    decode p (encode i) = .ok i := by
  cases hi with
  | nwr3 v =>
    have htrig : v.getLsbD p.trigBit = false := (Bool.not_eq_true' _).mp h
    simpa [encode, decode, nwrInstr] using htrig
  | nwr3Trig v =>
    have htrig : v.getLsbD p.trigBit = true := h
    simpa [encode, decode, nwrInstr] using htrig
  | nadv cycles =>
    have hcycles : cycles < 2 ^ 32 := of_decide_eq_true h
    simp only [encode, decode, opField_word, cyclesField_word, cycles_of_halves cycles hcycles]
    rfl
  | nwr0 | nwr1 | nwr2 => simp [encode, decode, nwrInstr]
  | nrd0 | nrd1 | nrd2 | nrd3 => simp [encode, decode, nrdInstr]
  | nclklen | nclkenv | nenabled | nsample | fs => simp [encode, decode]

/-- Settles O1, component by component. -/
theorem decodeOfEncodeIsTheOperation : Obligations.DecodeOfEncodeIsTheOperation := by
  unfold Obligations.DecodeOfEncodeIsTheOperation
  exact fun _ i h => (addressSpaceOp_or_noiseOp i).elim (·.decode_encode h) (·.decode_encode h)

/-! ## What a word decodes to -/

theorem wellFormed_of_nwrInstr {p : Params} {index : BitVec 16} {v : Byte} {i : Instr} (h : nwrInstr p index v = .ok i) :
    i.wellFormed p = true := by
  unfold nwrInstr at h
  split at h <;> cases h
  case h_4 =>
    split
    · next htrig => exact htrig
    · next htrig => exact (Bool.not_eq_true' _).mpr (Bool.eq_false_iff.mpr htrig)
  all_goals rfl

theorem wellFormed_of_nrdInstr {p : Params} {index : BitVec 16} {i : Instr} (h : nrdInstr index = .ok i) :
    i.wellFormed p = true := by
  unfold nrdInstr at h
  split at h <;> cases h <;> rfl

/-- Settles O2: the dispatch selects a well-formed row, and every operand is as wide as its field. -/
theorem decodedOperationsAreWellFormed : Obligations.DecodedOperationsAreWellFormed := by
  unfold Obligations.DecodedOperationsAreWellFormed
  intro p w i h
  unfold decode at h
  split at h
  case h_1 => cases h; exact wellFormed_readInstr_decodeRead p _
  case h_2 => cases h; exact (wellFormed_writeInstr_iff p _ _ _).mpr rfl
  case h_3 => cases h; exact (wellFormed_peekInstr p _ _).trans (wellFormed_readInstr_decodeRead p _)
  case h_6 => cases h; exact decide_eq_true (aField w).isLt
  case h_10 => exact wellFormed_of_nwrInstr h
  case h_11 => exact wellFormed_of_nrdInstr h
  case h_12 => cases h; exact decide_eq_true (cyclesField w).isLt
  case h_18 => cases h
  all_goals cases h; rfl

/-- Settles O3: with the op fixed, the decoder reads the fields of its format alone. -/
theorem unusedFieldsAreIgnored : Obligations.UnusedFieldsAreIgnored := by
  unfold Obligations.UnusedFieldsAreIgnored
  intro p w w' hop
  refine ⟨fun hs => ?_, fun hs ha => ?_, fun hs ha hv => ?_, fun hs hk => ?_⟩
  · simp only [List.mem_cons, List.not_mem_nil, or_false] at hs
    rcases hs with h | h | h | h | h | h <;> simp only [decode, ← hop, h]
  · simp only [List.mem_cons, List.not_mem_nil, or_false] at hs
    rcases hs with h | h | h | h | h | h <;> simp only [decode, ← hop, h, ha]
  · simp only [List.mem_cons, List.not_mem_nil, or_false] at hs
    rcases hs with h | h <;> simp only [decode, ← hop, h, ha, hv]
  · simp only [decode, ← hop, hs, hk]

/-- Settles O4, word by word. -/
theorem wordsOfTheSpecDecode : Obligations.WordsOfTheSpecDecode := by
  unfold Obligations.WordsOfTheSpecDecode
  exact ⟨rfl, rfl, rfl, rfl, rfl, rfl, rfl, rfl, rfl, rfl, rfl⟩

end Sys2Proof.Machine
end

section
/-! PROOF. What a byte access does (R120 to R157): a read makes at most one call or one diagnostic, a write stores in one
place of the block or does that; and the place is the one the address names. -/

namespace Sys2Proof.Machine

/-! ## Accesses that store nothing -/

/-- What an access that stores nothing in the block does: nothing, one call on a collaborator, or one diagnostic. -/
inductive Moves (s : State) : State → Prop where
  | nothing : Moves s s
  | call (port : Port) (c : PortCall) : Moves s (s.callPort port c)
  | diagnose (kind : AccessKind) (a : Addr) : Moves s (s.diagnose kind a)

theorem Moves.quiet {s t : State} (h : Moves s t) : Quiet s t := by
  cases h with
  | nothing => exact .rfl' s
  | call port c => exact .callPort s port c
  | diagnose kind a => exact .diagnose s kind a

/-- A call moves the mapper it is made on, and leaves it the same mapper (R29). -/
theorem State.callPort_selector (s : State) (port : Port) (c : PortCall) :
    (s.callPort port c).space.mapper.map MapperRef.cart = s.space.mapper.map MapperRef.cart := by
  cases port
  case mapper cart => exact Option.map_map _ _ _
  all_goals rfl

theorem Moves.selector {s t : State} (h : Moves s t) :
    t.space.mapper.map MapperRef.cart = s.space.mapper.map MapperRef.cart := by
  cases h with
  | nothing => rfl
  | call port c => exact s.callPort_selector port c
  | diagnose kind a => rfl

theorem lowIoRead_moves (a : Addr) (s : State) : Moves s (lowIoRead a s).2 := by
  unfold lowIoRead
  split
  · exact .call _ _
  · exact .diagnose _ _

theorem lowIoWrite_moves (a : Addr) (v : Byte) (s : State) : Moves s (lowIoWrite a v s) := by
  unfold lowIoWrite
  split
  · exact .call _ _
  · exact .diagnose _ _

theorem readRegion_moves {r : Region} {a : Addr} {s t : State} {v : Byte} (h : readRegion r a s = .ok (v, t)) :
    Moves s t := by
  cases r
  case rom | extram =>
    obtain ⟨m, -, hcall⟩ := (withMapper_eq_ok a s (fun port => portRead port a s) (v, t)).mp h
    cases hcall
    exact .call _ _
  case lowio =>
    obtain rfl : (lowIoRead a s).2 = t := congrArg Prod.snd (Except.ok.inj h)
    exact lowIoRead_moves a s
  case sound | video => cases h; exact .call _ _
  case ioUnmapped => cases h; exact .diagnose _ _
  all_goals cases h; exact .nothing

/-! ## Writes -/

/-- The write destinations that store nothing in the block: collaborators, and what drops the datum. -/
def passiveDests : List WriteDest :=
  [.dma, .region .rom, .region .extram, .region .unusable, .region .lowio, .region .sound, .region .video,
    .region .ioUnmapped]

/-- What a write of `v` at `a` that completes does, by its destination (R140). -/
inductive WriteEffect (a : Addr) (v : Byte) (s : State) : WriteDest → State → Prop where
  | array {r : Region} {l : Location} (h : arrayAt r a = some l) : WriteEffect a v s (.region r) (s.setByte l v)
  | toIf : WriteEffect a v s (.region .ifReg) (s.setIflag (ifStore v))
  | toKey1 : WriteEffect a v s (.region .key1) (s.setKey1 (key1Store v))
  | toIe : WriteEffect a v s (.region .ie) (s.setIe v)
  | passive {d : WriteDest} {t : State} (hd : d ∈ passiveDests) (h : Moves s t) : WriteEffect a v s d t

theorem writeRegion_effect {d : WriteDest} {a : Addr} {v : Byte} {s t : State} (h : writeRegion d a v s = .ok t) :
    WriteEffect a v s d t := by
  rcases d with _ | r
  · cases h
    exact .passive (by decide) (.call _ _)
  cases r
  case rom | extram =>
    obtain ⟨m, -, rfl⟩ := (withMapper_eq_ok a s (fun port => portWrite port a v s) t).mp h
    exact .passive (by decide) (.call _ _)
  case ifReg => cases h; exact .toIf
  case key1 => cases h; exact .toKey1
  case ie => cases h; exact .toIe
  case unusable => cases h; exact .passive (by decide) .nothing
  case lowio => cases h; exact .passive (by decide) (lowIoWrite_moves a v s)
  case sound | video => cases h; exact .passive (by decide) (.call _ _)
  case ioUnmapped => cases h; exact .passive (by decide) (.diagnose _ _)
  all_goals cases h; exact .array rfl

/-- Outside AddressSpace and the collaborators: NoiseChannel, the inputs, the parameters and the commands issued; and the
mapper attached, its hidden state aside. No bus access changes any of it. -/
structure SameSetup (s t : State) : Prop where
  selector : t.space.mapper.map MapperRef.cart = s.space.mapper.map MapperRef.cart
  noise : t.noise = s.noise
  fsStep : t.fsStep = s.fsStep
  params : t.params = s.params
  rejectedCarts : t.rejectedCarts = s.rejectedCarts
  pending : t.pending = s.pending

section
variable {s t u : State}

theorem SameSetup.trans (h : SameSetup s t) (k : SameSetup t u) : SameSetup s u :=
  ⟨k.selector.trans h.selector, k.noise.trans h.noise, k.fsStep.trans h.fsStep, k.params.trans h.params,
    k.rejectedCarts.trans h.rejectedCarts, k.pending.trans h.pending⟩

theorem SameSetup.begin (s : State) : SameSetup s s.begin := ⟨rfl, rfl, rfl, rfl, rfl, rfl⟩

theorem SameSetup.respond (s : State) (d : Datum) : SameSetup s (s.respond d) := ⟨rfl, rfl, rfl, rfl, rfl, rfl⟩

theorem SameSetup.mapper_isSome (h : SameSetup s t) : t.space.mapper.isSome = s.space.mapper.isSome := by
  rw [← Option.isSome_map, h.selector, Option.isSome_map]

theorem Moves.sameSetup (h : Moves s t) : SameSetup s t :=
  ⟨h.selector, h.quiet.noise, h.quiet.fsStep, h.quiet.params, h.quiet.rejectedCarts, h.quiet.pending⟩

variable {a : Addr} {v : Byte} {d : WriteDest}

theorem WriteEffect.sameSetup (h : WriteEffect a v s d t) : SameSetup s t := by
  cases h with
  | array => constructor <;> simp
  | toIf | toKey1 | toIe => exact ⟨rfl, rfl, rfl, rfl, rfl, rfl⟩
  | passive _ h => exact h.sameSetup

theorem WriteEffect.iflag (h : WriteEffect a v s d t) (hd : d ≠ .region .ifReg) : t.space.iflag = s.space.iflag := by
  cases h with
  | array => simp
  | toIf => exact absurd rfl hd
  | toKey1 | toIe => rfl
  | passive _ h => exact h.quiet.iflag

theorem WriteEffect.key1 (h : WriteEffect a v s d t) (hd : d ≠ .region .key1) : t.space.key1 = s.space.key1 := by
  cases h with
  | array => simp
  | toKey1 => exact absurd rfl hd
  | toIf | toIe => rfl
  | passive _ h => exact h.quiet.key1

theorem WriteEffect.ie (h : WriteEffect a v s d t) (hd : d ≠ .region .ie) : t.space.ie = s.space.ie := by
  cases h with
  | array => simp
  | toIe => exact absurd rfl hd
  | toIf | toKey1 => rfl
  | passive _ h => exact h.quiet.ie

end

/-! ## The place an address names -/

theorem arrayAt_decodeIoRead (p : Params) (a : Addr) : arrayAt (decodeIoRead p a) a = none := by
  unfold decodeIoRead
  split_ifs <;> rfl

/-- The windows onto the arrays: `[lo, hi)` and the array it opens onto, from index 0 (R61, R66). -/
def storageWindows : List (Nat × Nat × Backing) :=
  [(0x8000, 0xA000, .vram), (0xC000, 0xD000, .wram0), (0xD000, 0xE000, .wram1), (0xE000, 0xF000, .wram0),
    (0xF000, 0xFE00, .wram1), (0xFE00, 0xFEA0, .oam), (0xFF80, 0xFFFF, .hram)]

theorem storageOf_of_window {lo hi : Nat} {b : Backing} (h : (lo, hi, b) ∈ storageWindows) {a : Addr} (hlo : lo ≤ a.toNat)
    (hhi : a.toNat < hi) : storageOf a = some ⟨b, a.toNat - lo⟩ := by
  simp only [storageWindows, List.mem_cons, List.not_mem_nil, or_false, Prod.mk.injEq] at h
  unfold storageOf
  dsimp only
  rcases h with ⟨rfl, rfl, rfl⟩ | ⟨rfl, rfl, rfl⟩ | ⟨rfl, rfl, rfl⟩ | ⟨rfl, rfl, rfl⟩ | ⟨rfl, rfl, rfl⟩ |
    ⟨rfl, rfl, rfl⟩ | ⟨rfl, rfl, rfl⟩
  all_goals
    repeat rw [if_neg (by omega)]
    exact if_pos hhi

theorem storageOf_eq_none {a : Addr}
    (h : a.toNat < 0x8000 ∨ (0xA000 ≤ a.toNat ∧ a.toNat < 0xC000) ∨ (0xFEA0 ≤ a.toNat ∧ a.toNat < 0xFF80) ∨
      0xFFFF ≤ a.toNat) : storageOf a = none := by
  unfold storageOf
  dsimp only
  rcases h with h | h | h | h
  · exact if_pos h
  · repeat rw [if_neg (by omega)]
    exact if_pos h.2
  · repeat rw [if_neg (by omega)]
    exact if_pos h.2
  · repeat rw [if_neg (by omega)]

/-- The byte that the dispatched region reads and writes is the storage byte of the address (R61, R66). -/
theorem arrayAt_decodeRead (p : Params) (a : Addr) : arrayAt (decodeRead p a) a = storageOf a := by
  by_cases hio : inIoBlock a = true
  · obtain ⟨lo, hi⟩ := (inIoBlock_iff a).mp hio
    rw [decodeRead_of_inIoBlock p hio, arrayAt_decodeIoRead, storageOf_eq_none (by omega)]
  have hrow := wellFormed_readInstr_decodeRead p a
  generalize decodeRead p a = r at hrow
  cases r
  case ifReg => exact absurd ((isIf_iff p a).mp hrow).1 hio
  case key1 => exact absurd ((isKey1_iff p a).mp hrow).1 hio
  case sound => exact absurd ((pastRegisters_iff p a).mp ((isSound_iff p a).mp hrow).1).1 hio
  case video => exact absurd ((pastRegisters_iff p a).mp ((isVideo_iff p a).mp hrow).1).1 hio
  case lowio => exact absurd ((pastRegisters_iff p a).mp ((isLowio_iff p a).mp hrow).1).1 hio
  case ioUnmapped => exact absurd ((pastRegisters_iff p a).mp ((isUnmapped_iff p a).mp hrow).1).1 hio
  case ie =>
    obtain rfl : a = 0xFFFF := eq_of_beq hrow
    rfl
  all_goals obtain ⟨lo, hi⟩ := (within_iff _ _ a).mp hrow
  case rom | extram | unusable => exact (storageOf_eq_none (by omega)).symm
  case echo =>
    by_cases hbank : a.toNat < 0xF000
    · rw [storageOf_of_window (b := .wram0) (by decide) lo hbank, arrayAt, echoAt_eq_bank0 a lo hbank]
    · rw [storageOf_of_window (b := .wram1) (by decide) (not_lt.mp hbank) hi, arrayAt, echoAt_eq_bank1 a (not_lt.mp hbank)]
  case vram => rw [storageOf_of_window (b := .vram) (by decide) lo hi, arrayAt, vramAt_eq a lo]
  case wram0 => rw [storageOf_of_window (b := .wram0) (by decide) lo hi, arrayAt, wram0At_eq a lo]
  case wram1 => rw [storageOf_of_window (b := .wram1) (by decide) lo hi, arrayAt, wram1At_eq a lo]
  case oam => rw [storageOf_of_window (b := .oam) (by decide) lo hi, arrayAt, oamAt_eq a lo]
  case hram => rw [storageOf_of_window (b := .hram) (by decide) lo hi, arrayAt, hramAt_eq a lo]

/-- No storage byte in the I/O block, the only place where the write dispatch is another than that of reads. -/
theorem decodeWrite_of_storageOf (p : Params) {a : Addr} {l : Location} (h : storageOf a = some l) :
    decodeWrite p a = .region (decodeRead p a) := by
  refine decodeWrite_of_not_isDma fun hdma => ?_
  obtain ⟨hpast, -⟩ := (isDma_iff p a).mp hdma
  obtain ⟨hio, -⟩ := (pastRegisters_iff p a).mp hpast
  rw [← arrayAt_decodeRead p a, decodeRead_of_inIoBlock p hio, arrayAt_decodeIoRead] at h
  cases h

theorem memRead_of_storageOf {a : Addr} {l : Location} (h : storageOf a = some l) (s : State) :
    memRead a s = .ok (s.byteAt l, s) :=
  readRegion_of_arrayAt ((arrayAt_decodeRead s.params a).trans h) s

theorem memWrite_of_storageOf {a : Addr} {l : Location} (h : storageOf a = some l) (v : Byte) (s : State) :
    memWrite a v s = .ok (s.setByte l v) := by
  rw [memWrite, decodeWrite_of_storageOf s.params h]
  exact writeRegion_of_arrayAt ((arrayAt_decodeRead s.params a).trans h) v s

/-! ## What a complete write changes -/

/-- The destination of an address with no storage byte is no array. -/
theorem arrayAt_of_decodeWrite {p : Params} {a : Addr} {r : Region} (h : decodeWrite p a = .region r) :
    arrayAt r a = storageOf a := by
  by_cases hdma : isDma p a = true
  · rw [decodeWrite_of_isDma hdma] at h
    cases h
  · rw [decodeWrite_of_not_isDma hdma, WriteDest.region.injEq] at h
    exact h ▸ arrayAt_decodeRead p a

theorem decodeWrite_eq_ie_iff (p : Params) (a : Addr) : decodeWrite p a = .region .ie ↔ a = 0xFFFF := by
  rw [← wellFormed_writeInstr_iff p (.region .ie) a 0]
  exact beq_iff_eq

section
variable {a : Addr} {v : Byte} {s t : State}

theorem memWrite_effect (h : memWrite a v s = .ok t) : WriteEffect a v s (decodeWrite s.params a) t :=
  writeRegion_effect h

theorem memWrite_byteAt_same (h : memWrite a v s = .ok t) {l : Location} (hl : storageOf a = some l) :
    t.byteAt l = v := by
  rw [memWrite_of_storageOf hl] at h
  cases h
  exact s.byteAt_setByte_same l v (storageOf_bounds a l hl).1

theorem memWrite_byteAt_other (h : memWrite a v s = .ok t) {l : Location} (hl : storageOf a ≠ some l) :
    t.byteAt l = s.byteAt l := by
  have heffect := memWrite_effect h
  generalize hd : decodeWrite s.params a = d at heffect
  cases heffect with
  | array hr =>
    rw [arrayAt_of_decodeWrite hd] at hr
    exact s.byteAt_setByte_other _ l v fun e => hl (e ▸ hr)
  | toIf => simp
  | toKey1 => simp
  | toIe => simp
  | passive _ hmoves => exact hmoves.quiet.byteAt l

end

end Sys2Proof.Machine
end

section
/-! PROOF. The laws of the byte accesses (R122 to R161, R164): calls on collaborators, the echo region, what is read back
after a write, and PEEK beside RD. -/

namespace Sys2Proof.Machine

/-! ## Calls on collaborators -/

theorem lowIoHandler_of_range {p : Params} {a : Addr} (lo : 0xFF00 ≤ a.toNat) (hi : a.toNat < 0xFF08) :
    lowIoHandler p a = p.lowIoMap.toList.getD (a.toNat - 0xFF00) none :=
  if_pos ⟨lo, hi⟩

section
variable {s : State} {a : Addr} {h : LowIoHandler}

theorem lowIoRead_of_handler (hh : lowIoHandler s.params a = some h) : lowIoRead a s = portRead (handlerPort h) a s := by
  simp only [lowIoRead, hh]

theorem lowIoPeek_of_handler (hh : lowIoHandler s.params a = some h) : lowIoPeek a s = portPeek (handlerPort h) a s := by
  simp only [lowIoPeek, hh]

theorem lowIoWrite_of_handler (hh : lowIoHandler s.params a = some h) (v : Byte) :
    lowIoWrite a v s = portWrite (handlerPort h) a v s := by
  simp only [lowIoWrite, hh]

theorem exec_rdLowio_of_handler (hh : lowIoHandler s.params a = some h) :
    exec (.rdLowio a) s = finishByte (.ok (portRead (handlerPort h) a s.begin)) :=
  congrArg (fun r => finishByte (.ok r)) (lowIoRead_of_handler (s := s.begin) hh)

theorem exec_wrLowio_of_handler (hh : lowIoHandler s.params a = some h) (v : Byte) :
    exec (.wrLowio a v) s = .next (portWrite (handlerPort h) a v s.begin) :=
  congrArg Host.Outcome.next (lowIoWrite_of_handler (s := s.begin) hh v)

theorem exec_peekLowio_of_handler (hh : lowIoHandler s.params a = some h) :
    exec (.peekLowio a) s = finishByte (.ok (portPeek (handlerPort h) a s.begin)) :=
  congrArg (fun r => finishByte (.ok r)) (lowIoPeek_of_handler (s := s.begin) hh)

end

/-- Settles O14: the handler registered at a low I/O address names the port, and the call is the whole next state. -/
theorem readsOfCollaboratorsAreForwarded : Obligations.ReadsOfCollaboratorsAreForwarded := by
  unfold Obligations.ReadsOfCollaboratorsAreForwarded
  intro s a
  refine ⟨rfl, rfl, fun lo hi => ?_⟩
  simp only [← lowIoHandler_of_range lo hi]
  exact ⟨exec_rdLowio_of_handler, exec_rdLowio_of_handler, exec_rdLowio_of_handler⟩

/-- Settles O20, as O14. -/
theorem writesToCollaboratorsAreForwarded : Obligations.WritesToCollaboratorsAreForwarded := by
  unfold Obligations.WritesToCollaboratorsAreForwarded
  intro s a v
  refine ⟨rfl, rfl, rfl, fun lo hi => ?_⟩
  simp only [← lowIoHandler_of_range lo hi]
  exact ⟨(exec_wrLowio_of_handler · v), (exec_wrLowio_of_handler · v), (exec_wrLowio_of_handler · v)⟩

/-- Settles O26, as O14; a peek leaves the port's hidden state. -/
theorem peekOfCollaboratorsMovesNothing : Obligations.PeekOfCollaboratorsMovesNothing := by
  unfold Obligations.PeekOfCollaboratorsMovesNothing
  intro s a
  refine ⟨rfl, rfl, fun lo hi => ?_⟩
  simp only [← lowIoHandler_of_range lo hi]
  exact ⟨exec_peekLowio_of_handler, exec_peekLowio_of_handler, exec_peekLowio_of_handler⟩

section
variable {s : State} {m : MapperRef}

theorem withMapper_of_some {α : Type} (hm : s.space.mapper = some m) (a : Addr) (k : Port → α) :
    withMapper a s k = .ok (k (.mapper m.cart)) := by
  rw [withMapper, hm]

theorem hidden_mapper_of_some (hm : s.space.mapper = some m) (cart : BitVec 16) : s.hidden (.mapper cart) = m.hidden := by
  rw [State.hidden, hm]

/-- A call on the attached mapper moves it and is recorded in the response. -/
theorem callPort_mapper_of_some (hm : s.space.mapper = some m) (c : PortCall) :
    s.begin.callPort (.mapper m.cart) c = { s with
      space := { s.space with mapper := some ⟨m.cart, Config.portAfter (.mapper m.cart) c m.hidden⟩ }
      out := ⟨.none, false, [.call (.mapper m.cart) c]⟩ } := by
  rw [State.callPort, hidden_mapper_of_some (s := s.begin) hm]
  simp only [State.setHidden, State.emit_space, State.begin_space, hm, Option.map_some]
  rfl

theorem finishByte_read_of_some (hm : s.space.mapper = some m) (a : Addr) :
    finishByte (withMapper a s.begin fun port => portRead port a s.begin) = .next { s with
      space := { s.space with mapper := some ⟨m.cart, Config.portAfter (.mapper m.cart) (.read a) m.hidden⟩ }
      out := ⟨.byte (Config.portRead (.mapper m.cart) m.hidden a), false, [.call (.mapper m.cart) (.read a)]⟩ } := by
  rw [withMapper_of_some (s := s.begin) hm, portRead, callPort_mapper_of_some hm,
    hidden_mapper_of_some (s := s.begin) hm, finishByte_ok]
  rfl

theorem finish_write_of_some (hm : s.space.mapper = some m) (a : Addr) (v : Byte) :
    finish (withMapper a s.begin fun port => portWrite port a v s.begin) = .next { s with
      space := { s.space with mapper := some ⟨m.cart, Config.portAfter (.mapper m.cart) (.write a v) m.hidden⟩ }
      out := ⟨.none, false, [.call (.mapper m.cart) (.write a v)]⟩ } := by
  rw [withMapper_of_some (s := s.begin) hm, portWrite, callPort_mapper_of_some hm, finish_ok]

theorem finishByte_peek_of_some (hm : s.space.mapper = some m) (a : Addr) :
    finishByte (withMapper a s.begin fun port => portPeek port a s.begin) = .next { s with
      out := ⟨.byte (Config.portRead (.mapper m.cart) m.hidden a), false, [.call (.mapper m.cart) (.peek a)]⟩ } := by
  rw [withMapper_of_some (s := s.begin) hm, portPeek, hidden_mapper_of_some (s := s.begin) hm, finishByte_ok]
  rfl

end

/-- Settles O15: the two windows forward alike. -/
theorem mapperAccessesAreForwarded : Obligations.MapperAccessesAreForwarded := by
  unfold Obligations.MapperAccessesAreForwarded
  exact fun s m a v hm => ⟨finishByte_read_of_some hm a, finishByte_read_of_some hm a, finish_write_of_some hm a v,
    finish_write_of_some hm a v, finishByte_peek_of_some hm a, finishByte_peek_of_some hm a⟩

/-! ## The echo region -/

/-- The two windows onto working RAM name the same bytes (R66). -/
theorem storageOf_echo {a : Addr} (lo : 0xE000 ≤ a.toNat) (hi : a.toNat < 0xFE00) :
    ∃ l, storageOf a = some l ∧ storageOf (a - 0x2000) = some l := by
  have hsub : (a - 0x2000).toNat = a.toNat - 0x2000 := toNat_sub_base a 0x2000 (by show 0x2000 ≤ _; omega)
  by_cases hbank : a.toNat < 0xF000
  · refine ⟨_, storageOf_of_window (b := .wram0) (by decide) lo hbank, ?_⟩
    rw [storageOf_of_window (lo := 0xC000) (hi := 0xD000) (b := .wram0) (by decide) (by omega) (by omega), hsub,
      Nat.sub_sub]
  · refine ⟨_, storageOf_of_window (b := .wram1) (by decide) (not_lt.mp hbank) hi, ?_⟩
    rw [storageOf_of_window (lo := 0xD000) (hi := 0xE000) (b := .wram1) (by decide) (by omega) (by omega), hsub,
      Nat.sub_sub]

theorem exec_read_of_storageOf {a : Addr} {l : Location} (h : storageOf a = some l) (s : State) :
    exec (readInstr (decodeRead s.params a) a) s = finishByte (.ok (s.begin.byteAt l, s.begin)) := by
  rw [exec_read_eq_memRead rfl, memRead_of_storageOf h]

theorem exec_write_of_storageOf {a : Addr} {l : Location} (h : storageOf a = some l) (v : Byte) (s : State) :
    exec (writeInstr (decodeWrite s.params a) a v) s = .next (s.begin.setByte l v) := by
  rw [exec_write_eq_memWrite rfl, memWrite_of_storageOf h, finish_ok]

/-- A region with a storage byte is owned, so a peek of it is its read. -/
theorem exec_peek_of_storageOf {a : Addr} {l : Location} (h : storageOf a = some l) (s : State) :
    exec (peekInstr (decodeRead s.params a) a) s = finishByte (.ok (s.begin.byteAt l, s.begin)) := by
  have harray : arrayAt (decodeRead s.params a) a = some l := (arrayAt_decodeRead s.params a).trans h
  have howned : decodeRead s.params a ∈ ownedRegions := by
    generalize decodeRead s.params a = r at harray
    cases r
    case vram | wram0 | wram1 | echo | oam | hram => decide
    all_goals cases harray
  rw [exec_peekInstr, peekRegion_of_owned howned, readRegion_of_arrayAt harray]

/-- Settles O22: each of the three accesses is a function of the storage byte. -/
theorem echoMirrorsWorkingRam : Obligations.EchoMirrorsWorkingRam := by
  unfold Obligations.EchoMirrorsWorkingRam
  intro s a v lo hi
  obtain ⟨l, hecho, hwork⟩ := storageOf_echo lo hi
  rw [exec_read_of_storageOf hecho, exec_read_of_storageOf hwork, exec_write_of_storageOf hecho,
    exec_write_of_storageOf hwork, exec_peek_of_storageOf hecho, exec_peek_of_storageOf hwork]
  exact ⟨rfl, rfl, rfl⟩

/-! ## RAM-backed addresses -/

/-- The byte of a RAM-backed address: its storage byte, or IE at 0xFFFF (R164 (b)). -/
def State.ramByte (s : State) (a : Addr) : Byte :=
  match storageOf a with
  | some l => s.byteAt l
  | none => s.space.ie

/-- The store at a RAM-backed address. -/
def State.setRamByte (s : State) (a : Addr) (v : Byte) : State :=
  match storageOf a with
  | some l => s.setByte l v
  | none => s.setIe v

/-- A RAM-backed address has a storage byte or is 0xFFFF. -/
theorem eq_ffff_of_ramBacked {a : Addr} (h : ramBacked a = true) (hnone : storageOf a = none) : a = 0xFFFF := by
  simpa [ramBacked, hnone] using h

theorem memRead_of_ramBacked {a : Addr} (h : ramBacked a = true) (s : State) : memRead a s = .ok (s.ramByte a, s) := by
  cases hl : storageOf a with
  | some l => rw [memRead_of_storageOf hl, State.ramByte, hl]
  | none => cases eq_ffff_of_ramBacked h hl; rfl

theorem memWrite_of_ramBacked {a : Addr} (h : ramBacked a = true) (v : Byte) (s : State) :
    memWrite a v s = .ok (s.setRamByte a v) := by
  cases hl : storageOf a with
  | some l => rw [memWrite_of_storageOf hl, State.setRamByte, hl]
  | none =>
    cases eq_ffff_of_ramBacked h hl
    rw [memWrite, (decodeWrite_eq_ie_iff s.params 0xFFFF).mpr rfl]
    rfl

@[simp] theorem ramByte_begin (s : State) (a : Addr) : s.begin.ramByte a = s.ramByte a := by
  unfold State.ramByte
  split <;> simp

theorem ramByte_setRamByte_same (s : State) (a : Addr) (v : Byte) : (s.setRamByte a v).ramByte a = v := by
  unfold State.ramByte State.setRamByte
  cases hl : storageOf a with
  | some l => exact s.byteAt_setByte_same l v (storageOf_bounds a l hl).1
  | none => rfl

/-- Two consecutive RAM-backed addresses never name one byte. -/
theorem ramByte_setRamByte_next {a : Addr} (h : ramBacked a = true) (h' : ramBacked (a + 1) = true) (s : State) (v : Byte) :
    (s.setRamByte (a + 1) v).ramByte a = s.ramByte a := by
  unfold State.ramByte State.setRamByte
  cases hl : storageOf a with
  | some l =>
    cases hl' : storageOf (a + 1) with
    | some l' => exact s.byteAt_setByte_other l' l v fun e => storageOf_next_ne a l hl (e ▸ hl')
    | none => simp
  | none =>
    cases eq_ffff_of_ramBacked h hl
    exact absurd h' (by decide)

/-- Settles O23: both accesses are those of the one byte. -/
theorem ramReadsBackWhatWasWritten : Obligations.RamReadsBackWhatWasWritten := by
  unfold Obligations.RamReadsBackWhatWasWritten
  intro s a v h
  refine ⟨s.begin.setRamByte a v, (s.begin.setRamByte a v).begin.respond (.byte v), ?_, ?_, rfl⟩
  · rw [exec_write_eq_memWrite rfl, memWrite_of_ramBacked h, finish_ok]
  · rw [exec_read_eq_memRead rfl, memRead_of_ramBacked h, finishByte_ok, ramByte_begin, ramByte_setRamByte_same]

/-! ## The interrupt-flag register -/

theorem ifRead_ifStore (v : Byte) : ifRead (ifStore v) = 0xE0 ||| (v &&& 0x1F) := by
  have hmask : ∀ i < 8, (0x1F : Byte).getLsbD i = decide (i < 5) := by decide
  refine BitVec.eq_of_getLsbD_eq fun i hi => ?_
  rw [ifRead, BitVec.getLsbD_or, BitVec.getLsbD_or, BitVec.getLsbD_and, hmask i hi]
  simp [ifStore, hi, Bool.and_comm]

/-- Settles O24: IF is the first case of both sub-dispatches (R69, R70). -/
theorem interruptFlagReadsBackMasked : Obligations.InterruptFlagReadsBackMasked := by
  unfold Obligations.InterruptFlagReadsBackMasked
  intro s v lo hi
  have hio : isIf s.params s.params.ifAddr = true := (isIf_iff _ _).mpr ⟨(inIoBlock_iff _).mpr ⟨lo, hi⟩, rfl⟩
  have hwrite : decodeWrite s.params s.params.ifAddr = .region .ifReg :=
    (wellFormed_writeInstr_iff _ (.region .ifReg) _ v).mp hio
  have hread : decodeRead s.params s.params.ifAddr = .ifReg := (wellFormed_readInstr_iff _ .ifReg _).mp hio
  rw [← ifRead_ifStore]
  refine ⟨s.begin.setIflag (ifStore v), (s.begin.setIflag (ifStore v)).begin.respond (.byte (ifRead (ifStore v))), ?_, ?_,
    rfl⟩
  · rw [hwrite]
    rfl
  · show exec (readInstr (decodeRead s.params s.params.ifAddr) s.params.ifAddr) _ = _
    rw [hread]
    rfl

/-! ## PEEK -/

/-- A peek that completes tells of a read that completes with the same byte and the same diagnostic bit (R13, R161). -/
theorem exists_readRegion_of_peekRegion {r : Region} {a : Addr} {s t : State} {v : Byte}
    (h : peekRegion r a s = .ok (v, t)) : ∃ u, readRegion r a s = .ok (v, u) ∧ u.out.diag = t.out.diag := by
  by_cases howned : r ∈ ownedRegions
  · rw [peekRegion_of_owned howned] at h
    exact ⟨t, h, rfl⟩
  cases r
  case rom | extram =>
    obtain ⟨m, hm, hcall⟩ := (withMapper_eq_ok a s (fun port => portPeek port a s) (v, t)).mp h
    cases hcall
    exact ⟨_, withMapper_of_some hm a fun port => portRead port a s, by simp⟩
  case sound | video =>
    cases h
    exact ⟨_, rfl, by simp⟩
  case lowio =>
    cases hh : lowIoHandler s.params a with
    | none =>
      simp only [peekRegion, lowIoPeek, hh] at h
      exact ⟨t, by simp only [readRegion, lowIoRead, hh, h], rfl⟩
    | some handler =>
      rw [peekRegion, lowIoPeek_of_handler hh] at h
      cases h
      exact ⟨_, congrArg Except.ok (lowIoRead_of_handler hh), by simp⟩
  all_goals exact absurd (by decide) howned

/-- Settles O27: a peek changes the response alone, which no operation reads. -/
theorem peekLeavesNoTrace : Obligations.PeekLeavesNoTrace := by
  unfold Obligations.PeekLeavesNoTrace
  intro r a s t h
  rw [exec_peekInstr, finishByte_eq_next] at h
  obtain ⟨v, u, hpeek, rfl⟩ := h
  constructor
  · intro i
    obtain ⟨o, rfl⟩ := peekRegion_only_out r a s.begin u v hpeek
    rw [← exec_begin i s, ← exec_begin]
    rfl
  · obtain ⟨w, hread, hdiag⟩ := exists_readRegion_of_peekRegion hpeek
    exact ⟨w.respond (.byte v), by rw [exec_readInstr, hread, finishByte_ok], rfl, hdiag⟩

end Sys2Proof.Machine
end

section
/-! PROOF. RD16 and WR16 (R162 to R164): where both addresses are backed both halves complete, and each half changes what its
own address names. -/

namespace Sys2Proof.Machine

/-! ## Backed addresses -/

theorem backed_eq_false_iff (s : State) (a : Addr) :
    backed s a = false ↔ inMapperWindow a = true ∧ s.space.mapper = none := by
  simp [backed, and_comm]

/-- Backing depends on whether a mapper is attached, which no bus access changes. -/
theorem SameSetup.backed {s t : State} (h : SameSetup s t) (a : Addr) : backed t a = backed s a := by
  rw [Machine.backed, Machine.backed, h.mapper_isSome]

theorem memRead_eq_error_iff_backed (a : Addr) (s : State) (f : Fault) :
    memRead a s = .error f ↔ backed s a = false ∧ f = .missingBackend a := by
  rw [memRead_eq_error_iff_window, backed_eq_false_iff, and_assoc]

theorem memWrite_eq_error_iff_backed (a : Addr) (v : Byte) (s : State) (f : Fault) :
    memWrite a v s = .error f ↔ backed s a = false ∧ f = .missingBackend a := by
  rw [memWrite_eq_error_iff_window, backed_eq_false_iff, and_assoc]

theorem memRead_of_backed {a : Addr} {s : State} (h : backed s a = true) : ∃ v t, memRead a s = .ok (v, t) := by
  cases hr : memRead a s with
  | ok r => exact ⟨r.1, r.2, rfl⟩
  | error f =>
    rw [memRead_eq_error_iff_backed, h] at hr
    exact absurd hr.1 nofun

theorem memWrite_of_backed {a : Addr} {s : State} (h : backed s a = true) (v : Byte) : ∃ t, memWrite a v s = .ok t := by
  cases hr : memWrite a v s with
  | ok t => exact ⟨t, rfl⟩
  | error f =>
    rw [memWrite_eq_error_iff_backed, h] at hr
    exact absurd hr.1 nofun

theorem memRead_sameSetup {a : Addr} {s t : State} {v : Byte} (h : memRead a s = .ok (v, t)) : SameSetup s t :=
  (readRegion_moves h).sameSetup

theorem memWrite_sameSetup {a : Addr} {s t : State} {v : Byte} (h : memWrite a v s = .ok t) : SameSetup s t :=
  (memWrite_effect h).sameSetup

/-! ## The two halves in sequence -/

theorem execRd16_of_halves {a : Addr} {s t u : State} {lo hi : Byte} (h : memRead a s.begin = .ok (lo, t))
    (h' : memRead (nextAddr a) t = .ok (hi, u)) : execRd16 a s = .next (u.respond (.half (joinBytes hi lo))) := by
  simp only [execRd16, h, h']

theorem execWr16_of_halves {a : Addr} {v : Half} {s t u : State} (h : memWrite a (lowByte v) s.begin = .ok t)
    (h' : memWrite (nextAddr a) (highByte v) t = .ok u) : execWr16 a v s = .next u := by
  simp only [execWr16, h, h', finish_ok]

/-- A write says no datum after the datum of the response it finds. -/
theorem memWrite_keeps_datum {a : Addr} {v : Byte} {s t : State} (h : memWrite a v s = .ok t) :
    t.out.datum = s.out.datum := by
  rw [memWrite_eq_map_begin] at h
  cases hbegin : memWrite a v s.begin with
  | error f => rw [hbegin] at h; cases h
  | ok u => rw [hbegin] at h; cases h; rfl

/-- RD16 at two backed addresses completes, and stores nothing. -/
theorem rd16_completes {s : State} {a : Addr} (h : backed s a = true) (h' : backed s (a + 1) = true) :
    ∃ t x, exec (.rd16 a) s = .next t ∧ t.out.datum = .half x ∧ Quiet s t := by
  obtain ⟨lo, t, hfirst⟩ := memRead_of_backed (s := s.begin) h
  obtain ⟨hi, u, hsecond⟩ := memRead_of_backed (((memRead_sameSetup hfirst).backed (a + 1)).trans h')
  exact ⟨_, joinBytes hi lo, execRd16_of_halves hfirst hsecond, rfl,
    (((Quiet.begin s).trans (memRead_quiet _ _ _ _ hfirst)).trans (memRead_quiet _ _ _ _ hsecond)).trans
      (Quiet.respond u _)⟩

/-- WR16 at two backed addresses completes, and is its two writes. -/
theorem wr16_completes {s : State} {a : Addr} (h : backed s a = true) (h' : backed s (a + 1) = true) (v : Half) :
    ∃ t u, memWrite a (lowByte v) s.begin = .ok t ∧ memWrite (a + 1) (highByte v) t = .ok u ∧
      exec (.wr16 a v) s = .next u := by
  obtain ⟨t, hfirst⟩ := memWrite_of_backed (s := s.begin) h (lowByte v)
  obtain ⟨u, hsecond⟩ := memWrite_of_backed (((memWrite_sameSetup hfirst).backed (a + 1)).trans h') (highByte v)
  exact ⟨t, u, hfirst, hsecond, execWr16_of_halves hfirst hsecond⟩

/-- Settles O30: RD16 is quiet, and each frame of WR16 is the frame of its second write after that of its first. -/
theorem halfAccessesComplete : Obligations.HalfAccessesComplete := by
  unfold Obligations.HalfAccessesComplete
  intro s a v h h'
  constructor
  · obtain ⟨t, x, hexec, hdatum, hquiet⟩ := rd16_completes h h'
    exact ⟨t, x, hexec, hdatum, hquiet.byteAt, hquiet.ie, hquiet.iflag, hquiet.key1, hquiet.mapper, hquiet.noise,
      hquiet.fsStep, hquiet.params, hquiet.rejectedCarts, hquiet.pending⟩
  · obtain ⟨t, u, hfirst, hsecond, hexec⟩ := wr16_completes h h' v
    have hfirst' := memWrite_effect hfirst
    have hsecond' := memWrite_effect hsecond
    rw [hfirst'.sameSetup.params] at hsecond'
    have hsetup := hfirst'.sameSetup.trans hsecond'.sameSetup
    have hie {b : Addr} (hb : b ≠ 0xFFFF) : decodeWrite s.params b ≠ .region .ie :=
      mt (decodeWrite_eq_ie_iff s.params b).mp hb
    refine ⟨u, hexec, (memWrite_keeps_datum hsecond).trans (memWrite_keeps_datum hfirst), fun l hl => ?_,
      fun l hl => memWrite_byteAt_same hsecond hl, fun l hl hl' => ?_,
      fun ha ha' => (hsecond'.ie (hie ha')).trans (hfirst'.ie (hie ha)),
      fun hd hd' => (hsecond'.iflag hd').trans (hfirst'.iflag hd),
      fun hd hd' => (hsecond'.key1 hd').trans (hfirst'.key1 hd), hsetup.mapper_isSome, hsetup.noise, hsetup.fsStep,
      hsetup.params, hsetup.rejectedCarts, hsetup.pending⟩
    · have hother : storageOf (a + 1) ≠ some l := storageOf_next_ne a l hl
      rw [memWrite_byteAt_other hsecond hother]
      exact memWrite_byteAt_same hfirst hl
    · rw [memWrite_byteAt_other hsecond hl', memWrite_byteAt_other hfirst hl, State.begin_byteAt]

theorem joinBytes_highByte_lowByte (v : Half) : joinBytes (highByte v) (lowByte v) = v :=
  (BitVec.extractLsb'_append_extractLsb'_eq_extractLsb' rfl).trans BitVec.extractLsb'_eq_self

/-- Settles O31: the two bytes are distinct, so each read finds what its write left. -/
theorem halfRoundTrip : Obligations.HalfRoundTrip := by
  unfold Obligations.HalfRoundTrip
  intro s a v h h'
  have hwrite := execWr16_of_halves (memWrite_of_ramBacked h (lowByte v) s.begin)
    (memWrite_of_ramBacked h' (highByte v) _)
  have hread (t : State) := execRd16_of_halves (memRead_of_ramBacked h t.begin) (memRead_of_ramBacked h' _)
  refine ⟨_, _, hwrite, hread _, ?_⟩
  rw [ramByte_begin, ramByte_begin, ramByte_setRamByte_same, ramByte_setRamByte_next h h', ramByte_setRamByte_same,
    joinBytes_highByte_lowByte]
  rfl

end Sys2Proof.Machine
end

section
/-! PROOF. What a step answers (R8, R96, R232, R235): its fault and its refusal are functions of the command word and of
whether a mapper is attached, read off the outcome class by class. -/

namespace Sys2Proof.Machine

/-! ## A step with a word issued -/

/-- What a command word does once it is taken: the operation it decodes to, or the rejection (R96). -/
def execWord (s : State) (w : CommandWord) : Host.Outcome State Fault Refusal :=
  match decode s.params w with
  | .ok i => exec i s
  | .error e => rejected e

theorem execWord_of_ok {s : State} {w : CommandWord} {i : Instr} (h : decode s.params w = .ok i) :
    execWord s w = exec i s := by
  simp only [execWord, h]

theorem execWord_of_error {s : State} {w : CommandWord} {e : DecodeError} (h : decode s.params w = .error e) :
    execWord s w = rejected e := by
  simp only [execWord, h]

theorem step_eq_execWord {s : State} {w : CommandWord} {rest : List CommandWord} (h : s.pending = w :: rest) :
    step s = execWord { s with pending := rest } w := by
  cases hd : decode s.params w with
  | ok i =>
    rw [execWord_of_ok (s := { s with pending := rest }) hd]
    simp only [step, fetch_cons s w rest h, hd]
  | error e => rw [step_of_decode_error h hd, execWord_of_error (s := { s with pending := rest }) hd]

theorem step_of_nothing_issued {s : State} (h : s.pending = []) : step s = .next s := by
  simp only [step, fetch_nil s h, idle]

/-- Settles O7: the word in front is taken and does what it decodes to. -/
theorem stepRunsTheDecodedOperation : Obligations.StepRunsTheDecodedOperation := by
  unfold Obligations.StepRunsTheDecodedOperation
  exact fun s w rest i hw hd => (step_eq_execWord hw).trans (execWord_of_ok hd)

/-- Settles O8: with nothing to fetch the step idles. -/
theorem nothingIssuedHoldsTheState : Obligations.NothingIssuedHoldsTheState := by
  unfold Obligations.NothingIssuedHoldsTheState
  exact fun s => step_of_nothing_issued

/-! ## The stop of an outcome -/

/-- What an outcome stops with: a fault, a refusal, or neither. -/
def stopOf : Host.Outcome State Fault Refusal → Option Fault × Option Refusal
  | .next _ => (none, none)
  | .fault f => (some f, none)
  | .refused r => (none, some r)

@[simp] theorem stopOf_next (t : State) : stopOf (.next t) = (none, none) := rfl
@[simp] theorem stopOf_fault (f : Fault) : stopOf (.fault f) = (some f, none) := rfl
@[simp] theorem stopOf_refused (r : Refusal) : stopOf (.refused r) = (none, some r) := rfl

theorem eq_fault_iff (o : Host.Outcome State Fault Refusal) (f : Fault) : o = .fault f ↔ (stopOf o).1 = some f := by
  cases o <;> simp

theorem eq_refused_iff (o : Host.Outcome State Fault Refusal) (r : Refusal) : o = .refused r ↔ (stopOf o).2 = some r := by
  cases o <;> simp

theorem exists_next_of_stopOf {o : Host.Outcome State Fault Refusal} (h : stopOf o = (none, none)) : ∃ t, o = .next t := by
  cases o with
  | next t => exact ⟨t, rfl⟩
  | fault f => simp at h
  | refused r => simp at h

/-- The fault of a bus access at an address (R235). -/
def backendFault (s : State) (a : Addr) : Option Fault := if backed s a then none else some (.missingBackend a)

theorem backendFault_of_backed {s : State} {a : Addr} (h : backed s a = true) : backendFault s a = none := if_pos h

theorem backendFault_of_not_backed {s : State} {a : Addr} (h : backed s a = false) :
    backendFault s a = some (.missingBackend a) := by
  rw [backendFault, h]
  rfl

theorem stopOf_finishByte_memRead (s : State) (a : Addr) :
    stopOf (finishByte (memRead a s)) = (backendFault s a, none) := by
  cases h : backed s a with
  | true =>
    obtain ⟨v, t, hr⟩ := memRead_of_backed h
    rw [hr, backendFault_of_backed h]
    rfl
  | false =>
    rw [(memRead_eq_error_iff_backed a s _).mpr ⟨h, rfl⟩, backendFault_of_not_backed h]
    rfl

theorem stopOf_finish_memWrite (s : State) (a : Addr) (v : Byte) :
    stopOf (finish (memWrite a v s)) = (backendFault s a, none) := by
  cases h : backed s a with
  | true =>
    obtain ⟨t, hr⟩ := memWrite_of_backed h v
    rw [hr, backendFault_of_backed h]
    rfl
  | false =>
    rw [(memWrite_eq_error_iff_backed a v s _).mpr ⟨h, rfl⟩, backendFault_of_not_backed h]
    rfl

/-! ## The classes of operations -/

theorem stopOf_read (s : State) (a : Addr) :
    stopOf (exec (readInstr (decodeRead s.params a) a) s) = (backendFault s a, none) := by
  rw [exec_read_eq_memRead rfl]
  exact stopOf_finishByte_memRead s.begin a

theorem stopOf_write (s : State) (a : Addr) (v : Byte) :
    stopOf (exec (writeInstr (decodeWrite s.params a) a v) s) = (backendFault s a, none) := by
  rw [exec_write_eq_memWrite rfl]
  exact stopOf_finish_memWrite s.begin a v

/-- A peek faults where a read does. -/
theorem stopOf_peek (s : State) (a : Addr) :
    stopOf (exec (peekInstr (decodeRead s.params a) a) s) = (backendFault s a, none) := by
  have hfault (f : Fault) : peekRegion (decodeRead s.params a) a s.begin = .error f ↔ memRead a s.begin = .error f := by
    rw [peekRegion_eq_error, memRead_eq_error, State.begin_params]
  rw [← stopOf_read, exec_read_eq_memRead rfl, exec_peekInstr]
  cases hp : peekRegion (decodeRead s.params a) a s.begin with
  | error f => rw [(hfault f).mp hp]
  | ok r =>
    cases hr : memRead a s.begin with
    | error f => rw [(hfault f).mpr hr] at hp; cases hp
    | ok r' => rfl

/-- The first half before the second (R238). -/
def halfFault (s : State) (a : Addr) : Option Fault := backendFault s a <|> backendFault s (a + 1)

theorem halfFault_of_first {s : State} {a : Addr} (h : backed s a = false) : halfFault s a = some (.missingBackend a) := by
  rw [halfFault, backendFault_of_not_backed h]
  rfl

theorem halfFault_of_second {s : State} {a : Addr} (h : backed s a = true) :
    halfFault s a = backendFault s (a + 1) := by
  rw [halfFault, backendFault_of_backed h]
  rfl

theorem stopOf_rd16 (s : State) (a : Addr) : stopOf (exec (.rd16 a) s) = (halfFault s a, none) := by
  cases h : backed s a with
  | false =>
    rw [exec_rd16, execRd16_of_first_fault ((memRead_eq_error_iff_backed a s.begin _).mpr ⟨h, rfl⟩), halfFault_of_first h]
    rfl
  | true =>
    rw [halfFault_of_second h]
    cases h' : backed s (a + 1) with
    | true =>
      obtain ⟨t, x, hexec, -⟩ := rd16_completes h h'
      rw [hexec, backendFault_of_backed h', stopOf_next]
    | false =>
      obtain ⟨lo, t, hfirst⟩ := memRead_of_backed (s := s.begin) h
      have hmissing : backed t.begin (a + 1) = false := ((memRead_sameSetup hfirst).backed (a + 1)).trans h'
      rw [exec_rd16, backendFault_of_not_backed h',
        execRd16_of_second_fault hfirst ((memRead_eq_error_iff_backed (a + 1) t.begin _).mpr ⟨hmissing, rfl⟩)]
      rfl

theorem stopOf_wr16 (s : State) (a : Addr) (v : Half) : stopOf (exec (.wr16 a v) s) = (halfFault s a, none) := by
  cases h : backed s a with
  | false =>
    rw [exec_wr16, execWr16_of_first_fault ((memWrite_eq_error_iff_backed a _ s.begin _).mpr ⟨h, rfl⟩),
      halfFault_of_first h]
    rfl
  | true =>
    rw [halfFault_of_second h]
    cases h' : backed s (a + 1) with
    | true =>
      obtain ⟨t, u, -, -, hexec⟩ := wr16_completes h h' v
      rw [hexec, backendFault_of_backed h', stopOf_next]
    | false =>
      obtain ⟨t, hfirst⟩ := memWrite_of_backed (s := s.begin) h (lowByte v)
      have hmissing : backed t.begin (a + 1) = false := ((memWrite_sameSetup hfirst).backed (a + 1)).trans h'
      rw [exec_wr16, backendFault_of_not_backed h', execWr16_of_first_ok hfirst, nextAddr,
        (memWrite_eq_error_iff_backed (a + 1) _ t.begin _).mpr ⟨hmissing, rfl⟩]
      rfl

theorem stopOf_loadcart (s : State) (cart : BitVec 16) :
    stopOf (exec (.loadcart cart) s) =
      (none, if s.rejectedCarts.contains cart then some (.cartRejected cart) else none) := by
  rw [exec_loadcart, execLoadcart]
  split <;> rfl

/-- No operation of NoiseChannel faults or is refused (R2). -/
theorem NoiseOp.stopOf {i : Instr} (hi : NoiseOp i) (s : State) : stopOf (exec i s) = (none, none) := by
  cases hi <;> rfl

/-! ## Words of NoiseChannel and reserved words -/

theorem nwrInstr_of_lt_four {index : BitVec 16} (h : index.toNat < 4) (p : Params) (v : Byte) :
    ∃ i, NoiseOp i ∧ nwrInstr p index v = .ok i := by
  have hindex : index.toNat = 0 ∨ index.toNat = 1 ∨ index.toNat = 2 ∨ index.toNat = 3 := by omega
  rcases hindex with h | h | h | h <;> simp only [nwrInstr, h]
  · exact ⟨_, .nwr0 v, rfl⟩
  · exact ⟨_, .nwr1 v, rfl⟩
  · exact ⟨_, .nwr2 v, rfl⟩
  · split
    · exact ⟨_, .nwr3Trig v, rfl⟩
    · exact ⟨_, .nwr3 v, rfl⟩

theorem nrdInstr_of_lt_four {index : BitVec 16} (h : index.toNat < 4) : ∃ i, NoiseOp i ∧ nrdInstr index = .ok i := by
  have hindex : index.toNat = 0 ∨ index.toNat = 1 ∨ index.toNat = 2 ∨ index.toNat = 3 := by omega
  rcases hindex with h | h | h | h <;> simp only [nrdInstr, h]
  · exact ⟨_, .nrd0, rfl⟩
  · exact ⟨_, .nrd1, rfl⟩
  · exact ⟨_, .nrd2, rfl⟩
  · exact ⟨_, .nrd3, rfl⟩

section
variable {w : CommandWord}

theorem decode_of_clock (h : 0x12 ≤ (opField w).toNat ∧ (opField w).toNat ≤ 0x17) (p : Params) :
    ∃ i, NoiseOp i ∧ decode p w = .ok i := by
  have hop : (opField w).toNat = 0x12 ∨ (opField w).toNat = 0x13 ∨ (opField w).toNat = 0x14 ∨
      (opField w).toNat = 0x15 ∨ (opField w).toNat = 0x16 ∨ (opField w).toNat = 0x17 := by omega
  rcases hop with h | h | h | h | h | h <;> simp only [decode, h]
  · exact ⟨_, .nadv _, rfl⟩
  · exact ⟨_, .nclklen, rfl⟩
  · exact ⟨_, .nclkenv, rfl⟩
  · exact ⟨_, .nenabled, rfl⟩
  · exact ⟨_, .nsample, rfl⟩
  · exact ⟨_, .fs _, rfl⟩

theorem decode_of_reserved
    (h : (0x09 ≤ (opField w).toNat ∧ (opField w).toNat ≤ 0x0F) ∨ 0x18 ≤ (opField w).toNat) (p : Params) :
    decode p w = .error (.reservedOp (opField w)) := by
  unfold decode
  split
  case h_18 => rfl
  all_goals omega

end

/-- Settles O10: no op value of the table lies in the two ranges, so the decoder rejects the word by its op. -/
theorem reservedOpcodesAreRefused : Obligations.ReservedOpcodesAreRefused := by
  unfold Obligations.ReservedOpcodesAreRefused
  exact fun s w rest hw hop => step_of_decode_error hw (decode_of_reserved hop s.params)

/-! ## The cause table and the refusals by op -/

section
variable {w : CommandWord} (s : State)

theorem causeOf_of_byteAccess (h : (opField w).toNat = 0x00 ∨ (opField w).toNat = 0x01 ∨ (opField w).toNat = 0x02) :
    causeOf s w = backendFault s (aField w) :=
  if_pos h

theorem causeOf_of_halfAccess (h : (opField w).toNat = 0x03 ∨ (opField w).toNat = 0x04) :
    causeOf s w = halfFault s (aField w) := by
  unfold causeOf
  dsimp only
  rw [if_neg (by omega), if_pos h, halfFault, backendFault, backendFault]
  cases backed s (aField w)
  · rfl
  · cases backed s (aField w + 1) <;> rfl

theorem causeOf_of_register (h : (opField w).toNat = 0x10 ∨ (opField w).toNat = 0x11) :
    causeOf s w = if 4 ≤ (aField w).toNat then some (.invalidRegisterIndex (aField w)) else none := by
  unfold causeOf
  dsimp only
  rw [if_neg (by omega), if_neg (by omega), if_pos h]

theorem causeOf_of_other (h : 0x05 ≤ (opField w).toNat) (h' : (opField w).toNat ≠ 0x10) (h'' : (opField w).toNat ≠ 0x11) :
    causeOf s w = none := by
  unfold causeOf
  dsimp only
  rw [if_neg (by omega), if_neg (by omega), if_neg (by omega)]

theorem refusalOf_of_assigned
    (h : (opField w).toNat ≤ 0x07 ∨ (0x10 ≤ (opField w).toNat ∧ (opField w).toNat ≤ 0x17)) : refusalOf s w = none := by
  unfold refusalOf
  dsimp only
  rw [if_neg (by omega), if_neg (by omega)]

theorem refusalOf_of_loadcart (h : (opField w).toNat = 0x08) :
    refusalOf s w = if s.rejectedCarts.contains (aField w) then some (.cartRejected (aField w)) else none := by
  unfold refusalOf
  dsimp only
  rw [if_neg (by omega)]
  simp only [h, true_and]

theorem refusalOf_of_reserved (h : (0x09 ≤ (opField w).toNat ∧ (opField w).toNat ≤ 0x0F) ∨ 0x18 ≤ (opField w).toNat) :
    refusalOf s w = some (.reservedOp (opField w)) :=
  if_pos h

end

/-! ## The stop of a command word -/

/-- An NWR or NRD word stops at its index or runs an operation of NoiseChannel (R198). -/
theorem stopOf_execWord_register {s : State} {w : CommandWord} {index : BitVec 16}
    (hbad : 4 ≤ index.toNat → decode s.params w = .error (.invalidIndex index))
    (hgood : index.toNat < 4 → ∃ i, NoiseOp i ∧ decode s.params w = .ok i) :
    stopOf (execWord s w) = (if 4 ≤ index.toNat then some (.invalidRegisterIndex index) else none, none) := by
  by_cases h : 4 ≤ index.toNat
  · rw [execWord_of_error (hbad h), if_pos h]
    rfl
  · obtain ⟨i, hi, hd⟩ := hgood (by omega)
    rw [execWord_of_ok hd, hi.stopOf, if_neg h]

/-- The stop of a command word is that of the cause table and of the two refusals, op by op. -/
theorem stopOf_execWord (s : State) (w : CommandWord) : stopOf (execWord s w) = (causeOf s w, refusalOf s w) := by
  have hops : (opField w).toNat = 0x00 ∨ (opField w).toNat = 0x01 ∨ (opField w).toNat = 0x02 ∨
      (opField w).toNat = 0x03 ∨ (opField w).toNat = 0x04 ∨ (opField w).toNat = 0x05 ∨ (opField w).toNat = 0x06 ∨
      (opField w).toNat = 0x07 ∨ (opField w).toNat = 0x08 ∨ (opField w).toNat = 0x10 ∨ (opField w).toNat = 0x11 ∨
      (0x12 ≤ (opField w).toNat ∧ (opField w).toNat ≤ 0x17) ∨
      ((0x09 ≤ (opField w).toNat ∧ (opField w).toNat ≤ 0x0F) ∨ 0x18 ≤ (opField w).toNat) := by omega
  have hdecode {i : Instr} (h : decode s.params w = .ok i) : stopOf (execWord s w) = stopOf (exec i s) :=
    congrArg stopOf (execWord_of_ok h)
  rcases hops with h | h | h | h | h | h | h | h | h | h | h | h | h
  · rw [causeOf_of_byteAccess s (by omega), refusalOf_of_assigned s (by omega), ← stopOf_read]
    exact hdecode (by simp only [decode, h])
  · rw [causeOf_of_byteAccess s (by omega), refusalOf_of_assigned s (by omega), ← stopOf_write s _ (dataField w)]
    exact hdecode (by simp only [decode, h])
  · rw [causeOf_of_byteAccess s (by omega), refusalOf_of_assigned s (by omega), ← stopOf_peek]
    exact hdecode (by simp only [decode, h])
  · rw [causeOf_of_halfAccess s (by omega), refusalOf_of_assigned s (by omega), ← stopOf_rd16]
    exact hdecode (by simp only [decode, h])
  · rw [causeOf_of_halfAccess s (by omega), refusalOf_of_assigned s (by omega), ← stopOf_wr16 s _ (dField w)]
    exact hdecode (by simp only [decode, h])
  · rw [causeOf_of_other s (by omega) (by omega) (by omega), refusalOf_of_assigned s (by omega)]
    exact hdecode (i := .reqint (aField w).toNat) (by simp only [decode, h])
  · rw [causeOf_of_other s (by omega) (by omega) (by omega), refusalOf_of_assigned s (by omega)]
    exact hdecode (i := .reset) (by simp only [decode, h])
  · rw [causeOf_of_other s (by omega) (by omega) (by omega), refusalOf_of_assigned s (by omega)]
    exact hdecode (i := .tick) (by simp only [decode, h])
  · rw [causeOf_of_other s (by omega) (by omega) (by omega), refusalOf_of_loadcart s h, ← stopOf_loadcart]
    exact hdecode (by simp only [decode, h])
  · rw [causeOf_of_register s (by omega), refusalOf_of_assigned s (by omega)]
    refine stopOf_execWord_register (fun hi => ?_) (fun hi => ?_) <;> rw [decode_of_nwr h]
    · exact nwrInstr_of_four_le hi _ _
    · exact nwrInstr_of_lt_four hi _ _
  · rw [causeOf_of_register s (by omega), refusalOf_of_assigned s (by omega)]
    refine stopOf_execWord_register (fun hi => ?_) (fun hi => ?_) <;> rw [decode_of_nrd h]
    · exact nrdInstr_of_four_le hi
    · exact nrdInstr_of_lt_four hi
  · rw [causeOf_of_other s (by omega) (by omega) (by omega), refusalOf_of_assigned s (by omega)]
    obtain ⟨i, hi, hd⟩ := decode_of_clock h s.params
    rw [hdecode hd, hi.stopOf]
  · rw [causeOf_of_other s (by omega) (by omega) (by omega), refusalOf_of_reserved s h,
      execWord_of_error (decode_of_reserved h s.params)]
    rfl

/-- The stop of a step with a word issued; taking the word changes neither the mapper nor the rejected selectors. -/
theorem stopOf_step {s : State} {w : CommandWord} {rest : List CommandWord} (h : s.pending = w :: rest) :
    stopOf (step s) = (causeOf s w, refusalOf s w) := by
  rw [step_eq_execWord h]
  exact stopOf_execWord _ w

/-- Settles O55: with nothing issued there is no fault, and with a word issued it is that of the table. -/
theorem stepFaultsExactlyByTheCauseTable : Obligations.StepFaultsExactlyByTheCauseTable := by
  unfold Obligations.StepFaultsExactlyByTheCauseTable
  intro s f
  rw [eq_fault_iff]
  cases hp : s.pending with
  | nil => simp [step_of_nothing_issued hp]
  | cons w rest => simp [stopOf_step hp]

/-- Settles O56: likewise, and what neither faults nor is refused completes. -/
theorem everyOtherCommandCompletes : Obligations.EveryOtherCommandCompletes := by
  unfold Obligations.EveryOtherCommandCompletes
  intro s w rest hw
  have hstop := stopOf_step hw
  refine ⟨fun r => ?_, fun hcause hrefusal => ?_⟩
  · rw [eq_refused_iff, hstop]
  · rw [hcause, hrefusal] at hstop
    exact exists_next_of_stopOf hstop

end Sys2Proof.Machine
end

section
/-! PROOF. LOADCART, the NoiseChannel register writes (R173, R181 to R184) and what an operation can change in the whole
machine (R14, R29, R46, R236): the AddressSpace operations are inverted once. -/

namespace Sys2Proof.Machine

/-! ## LOADCART -/

theorem exec_loadcart_of_accepted {s : State} {cart : BitVec 16} (h : cart ∉ s.rejectedCarts) :
    exec (.loadcart cart) s = .next (attach cart (flushOldMapper s.begin)) := by
  rw [exec_loadcart, execLoadcart, if_neg (by simpa using h)]

theorem exec_loadcart_of_rejected {s : State} {cart : BitVec 16} (h : cart ∈ s.rejectedCarts) :
    exec (.loadcart cart) s = .refused (.cartRejected cart) := by
  rw [exec_loadcart, execLoadcart, if_pos (by simpa using h)]

theorem flushOldMapper_of_none {s : State} (h : s.space.mapper = none) : flushOldMapper s = s := by
  simp only [flushOldMapper, h]

theorem flushOldMapper_of_some {s : State} {m : MapperRef} (h : s.space.mapper = some m) :
    flushOldMapper s = saveRam m s := by
  simp only [flushOldMapper, h]

/-- Settles O35: what is flushed is stored before the new mapper is constructed from it. -/
theorem loadcartAttachesTheMapper : Obligations.LoadcartAttachesTheMapper := by
  unfold Obligations.LoadcartAttachesTheMapper
  intro s cart h
  rw [exec_loadcart_of_accepted h]
  refine ⟨fun hnone => ?_, fun m hm => ?_⟩
  · rw [flushOldMapper_of_none (s := s.begin) hnone]
    rfl
  · rw [flushOldMapper_of_some (s := s.begin) hm]
    rfl

/-- Settles O36: the list of rejected selectors is asked first. -/
theorem loadcartOfARejectedSelectorIsRefused : Obligations.LoadcartOfARejectedSelectorIsRefused := by
  unfold Obligations.LoadcartOfARejectedSelectorIsRefused
  exact fun s cart => exec_loadcart_of_rejected

/-- LOADCART changes the mapper, the persistent storage and the response. -/
theorem attach_flushOldMapper_eq (cart : BitVec 16) (s : State) : ∃ m po o,
    attach cart (flushOldMapper s) = { s with space := { s.space with mapper := some ⟨cart, m⟩ }, ports := po, out := o } := by
  unfold flushOldMapper
  split <;> exact ⟨_, _, _, rfl⟩

/-! ## NoiseChannel register writes -/

theorem dacOn_eq_false {n : NoiseChannel} (h : n.nr1 &&& 0xF8 = 0) : dacOn n = false := by
  simpa [dacOn] using h

/-- Settles O37: the length load is an option of NWR 0, and NWR 1 disables by the DAC check. -/
theorem noiseRegisterWritesStore : Obligations.NoiseRegisterWritesStore := by
  unfold Obligations.NoiseRegisterWritesStore
  intro s v
  refine ⟨fun h => next_setNoise ?_, fun h => next_setNoise ?_, fun h => next_setNoise ?_, fun h => next_setNoise ?_, rfl,
    rfl⟩
  · simp [h]
  · simp [h, Config.lenReload]
  · rw [forceDac, dacOn_eq_false (n := { s.noise with nr1 := v }) h, Bool.and_false]
  · rw [forceDac, (dacOn_iff { s.noise with nr1 := v }).mpr h, Bool.and_true]

/-! ## The AddressSpace operations inverted -/

/-- Nothing of the block's own state changes, and the mapper stays the same mapper. -/
structure Silent (s t : State) : Prop where
  quiet : Quiet s t
  setup : SameSetup s t

theorem Silent.trans {s t u : State} (h : Silent s t) (k : Silent t u) : Silent s u :=
  ⟨h.quiet.trans k.quiet, h.setup.trans k.setup⟩

/-- The response is no state of the block. -/
theorem Silent.setOut (s : State) (o : Output) : Silent s { s with out := o } :=
  ⟨by constructor <;> intros <;> rfl, rfl, rfl, rfl, rfl, rfl, rfl⟩

theorem Moves.silent {s t : State} (h : Moves s t) : Silent s t := ⟨h.quiet, h.sameSetup⟩

/-- What an AddressSpace operation that completes does: it changes nothing of the block's own state, is one or two writes, or
is one of the three system operations with an effect. -/
inductive SpaceEffect (s : State) : Instr → State → Prop where
  | silent {i : Instr} {t : State} (h : Silent s t) : SpaceEffect s i t
  | write {d : WriteDest} {a : Addr} {v : Byte} {t : State} (h : WriteEffect a v s.begin d t) :
      SpaceEffect s (writeInstr d a v) t
  | wr16 {a : Addr} {v : Half} {t u : State} (h : memWrite a (lowByte v) s.begin = .ok t)
      (h' : memWrite (a + 1) (highByte v) t = .ok u) : SpaceEffect s (.wr16 a v) u
  | reqint (bit : Nat) : SpaceEffect s (.reqint bit) (s.begin.setIflag (s.space.iflag ||| BitVec.twoPow 5 bit))
  | reset {t : State} (hspace : t.space = AddressSpace.reset) (hnoise : t.noise = s.noise) (hfs : t.fsStep = s.fsStep)
      (hparams : t.params = s.params) (hcarts : t.rejectedCarts = s.rejectedCarts) (hpending : t.pending = s.pending) :
      SpaceEffect s .reset t
  | loadcart (cart : BitVec 16) : SpaceEffect s (.loadcart cart) (attach cart (flushOldMapper s.begin))

theorem execRd16_eq_next {a : Addr} {s t : State} (h : execRd16 a s = .next t) :
    ∃ lo u hi w, memRead a s.begin = .ok (lo, u) ∧ memRead (a + 1) u = .ok (hi, w) ∧
      t = w.respond (.half (joinBytes hi lo)) := by
  unfold execRd16 nextAddr at h
  split at h
  · cases h
  · next lo hfirst =>
    split at h
    · cases h
    · next hi hsecond =>
      cases h
      exact ⟨lo.1, lo.2, hi.1, hi.2, hfirst, hsecond, rfl⟩

theorem execWr16_eq_next {a : Addr} {v : Half} {s u : State} (h : execWr16 a v s = .next u) :
    ∃ t, memWrite a (lowByte v) s.begin = .ok t ∧ memWrite (a + 1) (highByte v) t = .ok u := by
  unfold execWr16 nextAddr at h
  split at h
  · cases h
  · next t hfirst => exact ⟨t, hfirst, (finish_eq_next _ u).mp h⟩

theorem AddressSpaceOp.effect {i : Instr} (hi : AddressSpaceOp i) {s t : State} (h : exec i s = .next t) :
    SpaceEffect s i t := by
  have hbegin : Silent s s.begin := .setOut s Output.empty
  cases hi with
  | read r a =>
    rw [exec_readInstr, finishByte_eq_next] at h
    obtain ⟨v, u, hread, rfl⟩ := h
    exact .silent ((hbegin.trans (readRegion_moves hread).silent).trans (.setOut u _))
  | write d a v =>
    rw [exec_writeInstr, finish_eq_next] at h
    exact .write (writeRegion_effect h)
  | peek r a =>
    rw [exec_peekInstr, finishByte_eq_next] at h
    obtain ⟨v, u, hpeek, rfl⟩ := h
    obtain ⟨o, rfl⟩ := peekRegion_only_out r a s.begin u v hpeek
    exact .silent (.setOut s _)
  | rd16 a =>
    obtain ⟨lo, u, hi, w, hfirst, hsecond, rfl⟩ := execRd16_eq_next h
    have hreads := (readRegion_moves hfirst).silent.trans (readRegion_moves hsecond).silent
    exact .silent ((hbegin.trans hreads).trans (.setOut w _))
  | wr16 a v =>
    obtain ⟨u, hfirst, hsecond⟩ := execWr16_eq_next h
    exact .wr16 hfirst hsecond
  | reqint bit =>
    rw [exec_reqint_eq] at h
    cases h
    exact .reqint bit
  | reset =>
    rw [exec_reset_eq] at h
    cases h
    exact .reset rfl rfl rfl rfl rfl rfl
  | tick => cases h; exact .silent hbegin
  | loadcart cart =>
    by_cases hc : cart ∈ s.rejectedCarts
    · rw [exec_loadcart_of_rejected hc] at h
      cases h
    · rw [exec_loadcart_of_accepted hc] at h
      cases h
      exact .loadcart cart

/-! ## What NoiseChannel operations leave -/

/-- A NoiseChannel operation leaves AddressSpace (R2). -/
theorem NoiseOp.space_eq {i : Instr} (hi : NoiseOp i) {s t : State} (h : exec i s = .next t) : t.space = s.space := by
  cases hi <;> cases h <;> rfl

theorem NoiseOp.inputs_eq {i : Instr} (hi : NoiseOp i) {s t : State} (h : exec i s = .next t) :
    t.params = s.params ∧ t.rejectedCarts = s.rejectedCarts ∧ t.pending = s.pending ∧
      (t.fsStep = s.fsStep ∨ ∃ k, i = .fs k ∧ t.fsStep = k) := by
  cases hi
  case fs k => cases h; exact ⟨rfl, rfl, rfl, .inr ⟨k, rfl, rfl⟩⟩
  all_goals cases h; exact ⟨rfl, rfl, rfl, .inl rfl⟩

/-! ## The whole-machine rules -/

section
variable {s t : State} {i : Instr}

theorem SpaceEffect.setup (h : SpaceEffect s i t) :
    t.noise = s.noise ∧ t.fsStep = s.fsStep ∧ t.params = s.params ∧ t.rejectedCarts = s.rejectedCarts ∧
      t.pending = s.pending := by
  cases h with
  | silent h => exact ⟨h.setup.noise, h.setup.fsStep, h.setup.params, h.setup.rejectedCarts, h.setup.pending⟩
  | write h =>
    have h := (SameSetup.begin s).trans h.sameSetup
    exact ⟨h.noise, h.fsStep, h.params, h.rejectedCarts, h.pending⟩
  | wr16 h h' =>
    have h := ((SameSetup.begin s).trans (memWrite_sameSetup h)).trans (memWrite_sameSetup h')
    exact ⟨h.noise, h.fsStep, h.params, h.rejectedCarts, h.pending⟩
  | reqint bit => exact ⟨rfl, rfl, rfl, rfl, rfl⟩
  | reset hspace hnoise hfs hparams hcarts hpending => exact ⟨hnoise, hfs, hparams, hcarts, hpending⟩
  | loadcart cart =>
    obtain ⟨m, po, o, heq⟩ := attach_flushOldMapper_eq cart s.begin
    rw [heq]
    exact ⟨rfl, rfl, rfl, rfl, rfl⟩

end

/-- Settles O57, component by component. -/
theorem parametersAreFixed : Obligations.ParametersAreFixed := by
  unfold Obligations.ParametersAreFixed
  intro i s t h
  rcases addressSpaceOp_or_noiseOp i with hi | hi
  · obtain ⟨-, hfs, hparams, hcarts, hpending⟩ := (hi.effect h).setup
    exact ⟨hparams, hcarts, hpending, .inl hfs⟩
  · exact hi.inputs_eq h

/-- Settles O59: of the effects on AddressSpace four touch IF, and or-ing a mask into it clears no bit. -/
theorem onlyTheseChangeInterruptBits : Obligations.OnlyTheseChangeInterruptBits := by
  unfold Obligations.OnlyTheseChangeInterruptBits
  intro i s t h hne
  rcases addressSpaceOp_or_noiseOp i with hi | hi
  swap
  · exact absurd (congrArg AddressSpace.iflag (hi.space_eq h)) hne
  cases hi.effect h with
  | silent h => exact absurd h.quiet.iflag hne
  | @write d a v _ h =>
    by_cases hd : d = .region .ifReg
    · subst hd
      exact .inl ⟨a, v, rfl⟩
    · exact absurd (h.iflag hd) hne
  | @wr16 a v u _ hfirst hsecond =>
    refine .inr (.inl ⟨a, v, rfl, ?_⟩)
    by_contra hd
    obtain ⟨hd, hd'⟩ := not_or.mp hd
    have hsecond' := memWrite_effect hsecond
    rw [(memWrite_sameSetup hfirst).params] at hsecond'
    exact hne ((hsecond'.iflag hd').trans ((memWrite_effect hfirst).iflag hd))
  | reqint bit =>
    refine .inr (.inr (.inr ⟨bit, rfl, fun k hk => ?_⟩))
    rw [State.setIflag_space, BitVec.getLsbD_or, hk, Bool.true_or]
  | reset => exact .inr (.inr (.inl rfl))
  | loadcart cart =>
    obtain ⟨m, po, o, heq⟩ := attach_flushOldMapper_eq cart s.begin
    rw [heq] at hne
    exact absurd rfl hne

/-- Settles O60: no bus access changes which mapper is attached. -/
theorem onlyTheseAttachOrDetachTheMapper : Obligations.OnlyTheseAttachOrDetachTheMapper := by
  unfold Obligations.OnlyTheseAttachOrDetachTheMapper
  intro i s t h hne
  rcases addressSpaceOp_or_noiseOp i with hi | hi
  swap
  · exact absurd (congrArg (fun sp => sp.mapper.map MapperRef.cart) (hi.space_eq h)) hne
  cases hi.effect h with
  | silent h => exact absurd h.setup.selector hne
  | write h => exact absurd h.sameSetup.selector hne
  | wr16 hfirst hsecond =>
    exact absurd ((memWrite_sameSetup hfirst).trans (memWrite_sameSetup hsecond)).selector hne
  | reqint bit => exact absurd rfl hne
  | reset hspace => exact .inr ⟨rfl, congrArg AddressSpace.mapper hspace⟩
  | loadcart cart =>
    obtain ⟨m, po, o, heq⟩ := attach_flushOldMapper_eq cart s.begin
    rw [heq]
    exact .inl ⟨cart, rfl, rfl⟩

/-! ## Memory -/

/-- The invariant of the arrays depends on them alone. -/
theorem MemoryInv.of_array {s t : State} (hs : MemoryInv s) (h : ∀ b, t.array b = s.array b) : MemoryInv t := by
  obtain ⟨hwf, hbyte⟩ := hs
  rw [State.memWf_iff] at hwf
  refine ⟨(State.memWf_iff t).mpr fun b => (h b).symm ▸ hwf b, ?_⟩
  rw [State.byteAt, h]
  exact hbyte

theorem MemoryInv.of_space {s t : State} (hs : MemoryInv s) (h : t.space = s.space) : MemoryInv t :=
  hs.of_array fun b => by cases b <;> simp only [State.array, h]

theorem memoryInv_reset : MemoryInv State.reset := ⟨State.memWf_reset, rfl⟩

/-- A store at the storage byte of an address keeps the canonical form and misses byte 0x7F of high RAM (R25). -/
theorem MemoryInv.setByte {s : State} (hs : MemoryInv s) {a : Addr} {l : Location} (h : storageOf a = some l) (v : Byte) :
    MemoryInv (s.setByte l v) := by
  obtain ⟨hwf, hbyte⟩ := hs
  obtain ⟨-, hne⟩ := storageOf_bounds a l h
  exact ⟨s.memWf_setByte l v hwf, (s.byteAt_setByte_other l _ v hne.symm).trans hbyte⟩

/-- A write of a well-formed row keeps the invariant: its array, if it has one, is indexed by the address. -/
theorem WriteEffect.memoryInv {p : Params} {a : Addr} {v : Byte} {d : WriteDest} {s t : State}
    (h : WriteEffect a v s d t) (hd : decodeWrite p a = d) (hs : MemoryInv s) : MemoryInv t := by
  cases h with
  | array hr => exact hs.setByte ((arrayAt_of_decodeWrite hd).symm.trans hr) v
  | toIf | toKey1 | toIe => exact hs.of_array fun b => by simp
  | passive _ h => exact hs.of_array h.quiet.array

theorem memWrite_memoryInv {a : Addr} {v : Byte} {s t : State} (h : memWrite a v s = .ok t) (hs : MemoryInv s) :
    MemoryInv t :=
  (memWrite_effect h).memoryInv rfl hs

theorem SpaceEffect.memoryInv {s t : State} {i : Instr} (h : SpaceEffect s i t) {p : Params} (hi : i.wellFormed p = true)
    (hs : MemoryInv s) : MemoryInv t := by
  have hbegin : MemoryInv s.begin := hs.of_space rfl
  cases h with
  | silent h => exact hs.of_array h.quiet.array
  | write h => exact h.memoryInv ((wellFormed_writeInstr_iff p _ _ _).mp hi) hbegin
  | wr16 hfirst hsecond => exact memWrite_memoryInv hsecond (memWrite_memoryInv hfirst hbegin)
  | reqint bit => exact hbegin.of_array fun b => by simp
  | reset hspace => exact memoryInv_reset.of_space hspace
  | loadcart cart =>
    obtain ⟨m, po, o, heq⟩ := attach_flushOldMapper_eq cart s.begin
    rw [heq]
    exact hbegin.of_array fun b => by cases b <;> rfl

/-- A step that answers a next state holds the state, or runs a well-formed operation on it with the word taken. -/
theorem step_eq_next {s t : State} (h : step s = .next t) :
    t = s ∨ ∃ rest i, i.wellFormed s.params = true ∧ exec i { s with pending := rest } = .next t := by
  rcases step_cases s with ⟨-, hstep⟩ | ⟨w, rest, i, -, hd, hstep⟩ | ⟨w, rest, e, -, -, hstep⟩ <;> rw [hstep] at h
  · exact .inl (Host.Outcome.next.inj h).symm
  · exact .inr ⟨rest, i, decodedOperationsAreWellFormed s.params w i hd, h⟩
  · cases e <;> cases h

/-- Settles O52: the operation a word decodes to is well-formed (O2), so its writes stay at the storage byte of their
address; NoiseChannel operations leave AddressSpace. -/
theorem stepKeepsMemoryCanonical : Obligations.StepKeepsMemoryCanonical := by
  unfold Obligations.StepKeepsMemoryCanonical
  intro s t hs h
  obtain rfl | ⟨rest, i, hwf, hexec⟩ := step_eq_next h
  · exact hs
  · have htaken : MemoryInv { s with pending := rest } := hs.of_space rfl
    rcases addressSpaceOp_or_noiseOp i with hi | hi
    · exact (hi.effect hexec).memoryInv hwf htaken
    · exact htaken.of_space (hi.space_eq hexec)

end Sys2Proof.Machine
end

section
/-! PROOF. NADV and the LFSR shift (R211, R213): the loop makes the closed-form number of turns, and that number is additive
along the run. -/

namespace Sys2Proof.Machine

/-! ## The number of turns -/

/-- The turns of the loop of R211 from the divider `d` with the period `p`: as many periods as bring `d` above 0. -/
def turns (p d : Int) : Nat := if 0 < d then 0 else ((-d) / p + 1).toNat

section
variable {p d : Int}

theorem turns_of_pos (h : 0 < d) : turns p d = 0 := if_pos h

theorem turns_of_nonpos (hp : 0 < p) (h : d ≤ 0) : (turns p d : Int) = (-d) / p + 1 := by
  have hquot : 0 ≤ (-d) / p := Int.ediv_nonneg (by omega) hp.le
  rw [turns, if_neg (by omega), Int.toNat_of_nonneg (by omega)]

/-- One turn adds one period and leaves one turn less. -/
theorem turns_step (hp : 0 < p) (h : d ≤ 0) : turns p d = turns p (d + p) + 1 := by
  have hd := turns_of_nonpos hp h
  rcases lt_or_ge 0 (d + p) with hpos | hnonpos
  · have hquot : (-d) / p = 0 := Int.ediv_eq_zero_of_lt (by omega) (by omega)
    rw [turns_of_pos hpos]
    omega
  · have hnext := turns_of_nonpos hp hnonpos
    have hquot : (-d) / p = -(d + p) / p + 1 := by
      rw [← Int.add_ediv_of_dvd_right (dvd_refl p) |>.trans (congrArg _ (Int.ediv_self hp.ne'))]
      congr 1
      ring
    omega

/-- After its turns the divider is above 0. -/
theorem turns_pos (hp : 0 < p) : 0 < d + turns p d * p := by
  rcases lt_or_ge 0 d with hpos | hnonpos
  · rw [turns_of_pos hpos]
    omega
  · rw [turns_of_nonpos hp hnonpos]
    have := Int.lt_ediv_add_one_mul_self (-d) hp
    omega

/-- After at least one turn it is at most one period. -/
theorem turns_le (hp : 0 < p) (h : 0 < turns p d) : d + turns p d * p ≤ p := by
  have hnonpos : d ≤ 0 := by
    by_contra hpos
    rw [turns_of_pos (by omega)] at h
    exact absurd h (lt_irrefl 0)
  rw [turns_of_nonpos hp hnonpos, add_mul, one_mul]
  have := Int.ediv_mul_le (-d) hp.ne'
  omega

/-- So a bound on the divider and on the period is one on the divider afterwards. -/
theorem turns_end_le (hp : 0 < p) {q : Int} (hd : d ≤ q) (hq : p ≤ q) : d + turns p d * p ≤ q := by
  rcases Nat.eq_zero_or_pos (turns p d) with hzero | hpos
  · rw [hzero, Nat.cast_zero, zero_mul, add_zero]
    exact hd
  · exact (turns_le hp hpos).trans hq

theorem turns_mono (hp : 0 < p) {d' : Int} (h : d' ≤ d) : turns p d ≤ turns p d' := by
  rcases lt_or_ge 0 d with hpos | hnonpos
  · rw [turns_of_pos hpos]
    exact Nat.zero_le _
  · have hd := turns_of_nonpos hp hnonpos
    have hd' := turns_of_nonpos hp (h.trans hnonpos)
    have := Int.ediv_le_ediv hp (neg_le_neg h)
    omega

/-- The turns can be made in two goes. -/
theorem turns_add (hp : 0 < p) {k : Nat} (h : k ≤ turns p d) : turns p d = k + turns p (d + k * p) := by
  induction k with
  | zero => simp
  | succ k ih =>
    have hk := ih (by omega)
    have hrest : 0 < turns p (d + k * p) := by omega
    have hnonpos : d + k * p ≤ 0 := by
      by_contra hpos
      rw [turns_of_pos (by omega)] at hrest
      exact absurd hrest (lt_irrefl 0)
    rw [turns_step hp hnonpos] at hk
    have hsum : d + (k + 1 : Nat) * p = d + k * p + p := by push_cast; ring
    rw [hk, hsum]
    omega

end

/-! ## The loop -/

/-- With enough fuel the loop of R211 makes its turns. -/
theorem advanceLoop_eq {p : Nat} (hp : 0 < p) (wide : Bool) {fuel : Nat} {d : Int} (h : (1 - d).toNat ≤ fuel) (l : Lfsr) :
    advanceLoop p wide fuel d l = (d + turns p d * p, (lfsrShift wide)^[turns p d] l) := by
  induction fuel generalizing d l with
  | zero =>
    have hpos : 0 < d := by omega
    rw [advanceLoop_pos _ _ _ _ _ hpos, turns_of_pos hpos]
    simp
  | succ fuel ih =>
    rcases lt_or_ge 0 d with hpos | hnonpos
    · rw [advanceLoop_pos _ _ _ _ _ hpos, turns_of_pos hpos]
      simp
    · rw [advanceLoop_turn _ _ _ _ _ hnonpos, ih (by omega), turns_step (by omega) hnonpos, Nat.cast_succ, add_mul,
        one_mul, Function.iterate_succ_apply, add_assoc, add_comm (p : Int)]

theorem advance_eq (cycles : Nat) (n : NoiseChannel) :
    advance cycles n = { n with
      div := n.div - cycles + turns (period n) (n.div - cycles) * period n
      lfsr := (lfsrShift (wmode n))^[turns (period n) (n.div - cycles)] n.lfsr } := by
  have hp : 0 < period n := lt_of_lt_of_le (by decide) (period_bounds n).1
  rw [advance, advanceLoop_eq hp (wmode n) le_rfl]

theorem period_pos (n : NoiseChannel) : (0 : Int) < period n :=
  Int.natCast_pos.mpr (lt_of_lt_of_le (by decide) (period_bounds n).1)

theorem exec_nadv_eq (cycles : Nat) (s : State) :
    exec (.nadv cycles) s = .next { s with noise := advance cycles s.noise, out := ⟨.none, false, []⟩ } := rfl

/-- Settles O40: the bounds are those of the number of turns. -/
theorem advanceShiftsByTheClosedForm : Obligations.AdvanceShiftsByTheClosedForm := by
  unfold Obligations.AdvanceShiftsByTheClosedForm
  intro s cycles
  have hp : (0 : Int) < period s.noise := period_pos s.noise
  rw [exec_nadv_eq, advance_eq]
  refine ⟨_, rfl, rfl, turns_pos hp, turns_le hp, fun hle => turns_end_le hp (by omega) le_rfl,
    fun hzero => ?_⟩
  change turns _ _ = 0 at hzero
  show s.noise.div - cycles + turns _ _ * _ ≤ _
  rw [hzero, Nat.cast_zero, zero_mul]
  omega

/-- Two advances are one: the turns of the second go on where those of the first stopped. -/
theorem advance_advance (x y : Nat) (n : NoiseChannel) : advance y (advance x n) = advance (x + y) n := by
  have hp : (0 : Int) < period n := period_pos n
  have hperiod : period (advance x n) = period n := rfl
  have hwmode : wmode (advance x n) = wmode n := rfl
  have hfewer : turns (period n) (n.div - x) ≤ turns (period n) (n.div - (x + y : Nat)) := turns_mono hp (by omega)
  have hsplit := turns_add hp hfewer
  have hdiv : n.div - x + turns (period n) (n.div - x) * period n - y =
      n.div - (x + y : Nat) + turns (period n) (n.div - x) * period n := by push_cast; ring
  rw [advance_eq y, advance_eq (x + y), hperiod, hwmode, advance_eq x]
  dsimp only
  rw [hdiv, hsplit, ← Function.iterate_add_apply, add_comm (turns _ (_ + _))]
  congr 1
  push_cast
  ring

/-- Settles O41: the response of NADV is empty both ways, and the channel is that of the one advance. -/
theorem advanceSplitsExactly : Obligations.AdvanceSplitsExactly := by
  unfold Obligations.AdvanceSplitsExactly
  intro s x y
  refine ⟨_, exec_nadv_eq x s, ?_⟩
  rw [exec_nadv_eq, exec_nadv_eq]
  dsimp only
  rw [advance_advance]

end Sys2Proof.Machine
end

section
/-! PROOF. The LFSR shift (R213), bit by bit. -/

namespace Sys2Proof.Machine

theorem getLsbD_ite_mask (b : Bool) (mask : Lfsr) (i : Nat) :
    (if b then mask else 0 : Lfsr).getLsbD i = (b && mask.getLsbD i) := by
  cases b <;> simp

/-- Settles O43: the masks select bit 14 and bit 6. -/
theorem lfsrShiftFeedsBack : Obligations.LfsrShiftFeedsBack := by
  unfold Obligations.LfsrShiftFeedsBack
  intro wide l i hi
  have htop : ∀ i < 15, (0x4000 : Lfsr).getLsbD i = decide (i = 14) := by decide
  have hsix : ∀ i < 15, (0x0040 : Lfsr).getLsbD i = decide (i = 6) := by decide
  have hkeep : ∀ i < 15, (0x7FBF : Lfsr).getLsbD i = decide (i ≠ 6) := by decide
  have hshifted : ((l >>> 1) ||| (if l.getLsbD 0 ^^ l.getLsbD 1 then 0x4000 else 0)).getLsbD i =
      if i = 14 then l.getLsbD 0 ^^ l.getLsbD 1 else l.getLsbD (i + 1) := by
    rw [BitVec.getLsbD_or, BitVec.getLsbD_ushiftRight, getLsbD_ite_mask, htop i hi, add_comm 1 i]
    by_cases h : i = 14
    · subst h
      simp
    · simp [h]
  cases wide with
  | false => simpa [lfsrShift] using hshifted
  | true =>
    simp only [lfsrShift, if_true]
    rw [BitVec.getLsbD_or, BitVec.getLsbD_and, getLsbD_ite_mask, hshifted, hkeep i hi, hsix i hi]
    by_cases h : i = 6
    · subst h
      simp
    · simp [h]

/-- Bit 14 of the shifted value is the feedback bit in both modes. -/
theorem lfsrShift_getLsbD_top (wide : Bool) (l : Lfsr) :
    (lfsrShift wide l).getLsbD 14 = (l.getLsbD 0 ^^ l.getLsbD 1) := by
  rw [lfsrShiftFeedsBack wide l 14 (by decide), if_pos (.inl rfl)]

/-- Every other bit, but for bit 6 in width mode, is its left neighbour. -/
theorem lfsrShift_getLsbD_of_lt (wide : Bool) (l : Lfsr) {i : Nat} (hi : i < 14) (h : ¬ (wide = true ∧ i = 6)) :
    (lfsrShift wide l).getLsbD i = l.getLsbD (i + 1) := by
  rw [lfsrShiftFeedsBack wide l i (by omega), if_neg (not_or.mpr ⟨by omega, h⟩)]

/-- In long mode bits 1 to 14 are seen in the shifted value, and bit 0 by its sum with bit 1. -/
theorem lfsrShift_long_injective : Function.Injective (lfsrShift false) := by
  intro l l' h
  have hupper (i : Nat) (hi : i < 14) : l.getLsbD (i + 1) = l'.getLsbD (i + 1) := by
    rw [← lfsrShift_getLsbD_of_lt false l hi (by simp), h, lfsrShift_getLsbD_of_lt false l' hi (by simp)]
  have hsum := lfsrShift_getLsbD_top false l
  rw [h, lfsrShift_getLsbD_top, hupper 0 (by decide)] at hsum
  refine BitVec.eq_of_getLsbD_eq fun i hi => ?_
  cases i with
  | zero => exact (Bool.xor_left_inj.mp hsum).symm
  | succ i => exact hupper i (by omega)

/-- Settles O44: an injection of a finite type into itself is a bijection. -/
theorem longShiftIsABijectionFixingZero : Obligations.LongShiftIsABijectionFixingZero := by
  unfold Obligations.LongShiftIsABijectionFixingZero
  exact ⟨Finite.injective_iff_bijective.mp lfsrShift_long_injective, rfl⟩

/-- In short mode a zero result shows every bit but bit 7 to be zero. -/
theorem getLsbD_of_lfsrShift_short_zero {l : Lfsr} (h : lfsrShift true l = 0#15) {i : Nat} (hi : i < 15) (h7 : i ≠ 7) :
    l.getLsbD i = false := by
  have hupper (k : Nat) (hk : k < 14) (h6 : k ≠ 6) : l.getLsbD (k + 1) = false := by
    rw [← lfsrShift_getLsbD_of_lt true l hk (by simp [h6]), h, BitVec.getLsbD_zero]
  have hsum := lfsrShift_getLsbD_top true l
  rw [h, BitVec.getLsbD_zero, hupper 0 (by decide) (by decide), Bool.xor_false] at hsum
  cases i with
  | zero => exact hsum.symm
  | succ k => exact hupper k (by omega) (by omega)

/-- Settles O45: in short mode bit 7 is the one bit that no bit of the result shows. -/
theorem shortShiftLosesOneState : Obligations.ShortShiftLosesOneState := by
  unfold Obligations.ShortShiftLosesOneState
  refine ⟨fun l => ⟨fun h => lfsrShift_long_injective h, by rintro rfl; rfl⟩, fun l => ⟨fun h => ?_, ?_⟩⟩
  · have hbit : ∀ i < 15, (0x0080 : Lfsr).getLsbD i = decide (i = 7) := by decide
    cases h7 : l.getLsbD 7 with
    | false =>
      refine .inl (BitVec.eq_of_getLsbD_eq fun i hi => Eq.trans ?_ BitVec.getLsbD_zero.symm)
      by_cases hi7 : i = 7
      · rw [hi7, h7]
      · exact getLsbD_of_lfsrShift_short_zero h hi hi7
    | true =>
      refine .inr (BitVec.eq_of_getLsbD_eq fun i hi => ?_)
      by_cases hi7 : i = 7
      · rw [hi7, h7]
        rfl
      · rw [getLsbD_of_lfsrShift_short_zero h hi hi7, hbit i hi, decide_eq_false hi7]
  · rintro (rfl | rfl) <;> rfl

end Sys2Proof.Machine
end

section
/-! PROOF. NoiseChannel through a step (R44, R46, R47, R214, R218): AddressSpace operations leave it, and each of its own
operations keeps the bounds. -/

namespace Sys2Proof.Machine

/-! ## The enabled flag -/

/-- NCLKLEN leaves the channel, counts down above 0, or counts to 0 and disables (R214). -/
theorem clockLength_cases (n : NoiseChannel) :
    clockLength n = n ∨ (1 < n.len ∧ clockLength n = { n with len := n.len - 1 }) ∨
      (n.len = 1 ∧ clockLength n = { n with len := 0, en := false }) := by
  cases hen : n.nr3.getLsbD 6 with
  | false => exact .inl (clockLength_of_stopped (.inl hen))
  | true =>
    rcases lt_trichotomy n.len 1 with h | h | h
    · exact .inl (clockLength_of_stopped (.inr (by omega)))
    · exact .inr (.inr ⟨h, clockLength_of_eq_one hen h⟩)
    · exact .inr (.inl ⟨h, clockLength_of_one_lt hen h⟩)

theorem clockEnvelope_en (n : NoiseChannel) : (clockEnvelope n).en = n.en := by
  unfold clockEnvelope
  split <;> rfl

theorem clockEnvelope_div (n : NoiseChannel) : (clockEnvelope n).div = n.div := by
  unfold clockEnvelope
  split <;> rfl

/-- What NWR 0 leaves in the channel. -/
theorem exec_nwr0_eq (v : Byte) (s : State) : ∃ n, exec (.nwr0 v) s = .next (s.begin.setNoise n) ∧
    (n = { s.noise with nr0 := v } ∨ n = { s.noise with nr0 := v, len := 64 - v.toNat % 64 }) := by
  obtain ⟨hstore, hload, -⟩ := noiseRegisterWritesStore s v
  cases hparam : s.params.lenLoadOnReg0 with
  | false => exact ⟨_, hstore hparam, .inl rfl⟩
  | true => exact ⟨_, hload hparam, .inr rfl⟩

/-- Settles O58: of the operations only NWR 1, a trigger and NCLKLEN write the flag. -/
theorem onlyTheseChangeTheEnabledFlag : Obligations.OnlyTheseChangeTheEnabledFlag := by
  unfold Obligations.OnlyTheseChangeTheEnabledFlag
  intro i s t h
  have hclash {b : Bool} (hoff : b = false) (hon : b = true) : False := Bool.false_ne_true (hoff.symm.trans hon)
  by_cases hsame : t.noise.en = s.noise.en
  · rw [hsame]
    exact ⟨fun hoff hon => (hclash hoff hon).elim, fun hon hoff => (hclash hoff hon).elim⟩
  rcases addressSpaceOp_or_noiseOp i with hi | hi
  · obtain ⟨hnoise, -⟩ := (hi.effect h).setup
    exact absurd (congrArg NoiseChannel.en hnoise) hsame
  cases hi
  case nwr1 v =>
    cases h
    change ¬ (s.noise.en && dacOn { s.noise with nr1 := v }) = s.noise.en at hsame
    by_cases hdac : v &&& 0xF8 = 0
    · have hoff : dacOn { s.noise with nr1 := v } = false := dacOn_eq_false hdac
      refine ⟨fun _ hon => ?_, fun _ _ => .inl ⟨v, rfl, hdac⟩⟩
      exact (hclash hoff (Bool.and_eq_true_iff.mp hon).2).elim
    · rw [(dacOn_iff { s.noise with nr1 := v }).mpr hdac, Bool.and_true] at hsame
      exact absurd rfl hsame
  case nwr3Trig v =>
    rw [exec_nwr3Trig_eq] at h
    cases h
    by_cases hdac : s.noise.nr1 &&& 0xF8 = 0
    · exact ⟨fun _ hon => (hclash (dacOn_eq_false hdac) hon).elim, fun _ _ => .inr (.inl ⟨v, rfl, hdac⟩)⟩
    · exact ⟨fun _ _ => ⟨v, rfl, hdac⟩, fun _ hoff => (hclash hoff ((dacOn_iff s.noise).mpr hdac)).elim⟩
  case nclklen =>
    cases h
    change ¬ (clockLength s.noise).en = s.noise.en at hsame
    change (_ → (clockLength s.noise).en = true → _) ∧
      (_ → (clockLength s.noise).en = false → _ ∨ _ ∨ (_ ∧ _ ∧ (clockLength s.noise).len = 0))
    rcases clockLength_cases s.noise with hn | ⟨-, hn⟩ | ⟨hlen, hn⟩ <;> rw [hn] at hsame ⊢
    · exact absurd rfl hsame
    · exact absurd rfl hsame
    · exact ⟨fun _ hon => (hclash rfl hon).elim, fun _ _ => .inr (.inr ⟨rfl, hlen, rfl⟩)⟩
  case nwr0 v =>
    obtain ⟨n, hexec, rfl | rfl⟩ := exec_nwr0_eq v s <;> rw [hexec] at h <;> cases h <;> exact absurd rfl hsame
  case nclkenv =>
    cases h
    exact absurd (clockEnvelope_en s.noise) hsame
  all_goals
    cases h
    exact absurd rfl hsame

/-! ## The bounds -/

theorem advance_div_pos (cycles : Nat) (n : NoiseChannel) : 0 < (advance cycles n).div := by
  rw [advance_eq]
  exact turns_pos (period_pos n)

/-- The divider stays where it was or at most one period, which is at most the longest. -/
theorem advance_div_le_max (cycles : Nat) {n : NoiseChannel} (h : n.div ≤ 3670016) :
    (advance cycles n).div ≤ 3670016 := by
  have hmax : period n ≤ 3670016 := (period_bounds n).2
  rw [advance_eq]
  exact turns_end_le (period_pos n) (by omega) (by omega)

section
variable {p : Params} {n : NoiseChannel}

theorem NoiseInv.clockLength (hn : NoiseInv p n) : NoiseInv p (clockLength n) := by
  rcases clockLength_cases n with h | ⟨hlen, h⟩ | ⟨-, h⟩ <;> rw [h]
  · exact hn
  · exact { hn with
      len_le := (Nat.sub_le _ _).trans hn.len_le
      en_len := fun _ => by show n.len - 1 ≠ 0; omega }
  · exact { hn with len_le := Nat.zero_le _, en_len := nofun, en_dac := nofun }

theorem NoiseInv.clockEnvelope (hn : NoiseInv p n) : NoiseInv p (clockEnvelope n) := by
  have hnonneg := hn.envctr_nonneg
  have hle := hn.envctr_le
  obtain ⟨hlow, hhigh⟩ := envReload_bounds n
  unfold Machine.clockEnvelope
  split
  · refine { hn with
      vol_le := ?_
      envctr_nonneg := Int.natCast_nonneg _
      envctr_le := by show (envReload n : Int) ≤ 9; omega }
    show (if eper n ≠ 0 then stepVolume n else n.vol) ≤ 15
    split
    · exact stepVolume_le n hn.vol_le
    · exact hn.vol_le
  · exact { hn with
      envctr_nonneg := by show 0 ≤ n.envctr - 1; omega
      envctr_le := by show n.envctr - 1 ≤ 9; omega }

theorem NoiseInv.advance (hn : NoiseInv p n) (cycles : Nat) : NoiseInv p (advance cycles n) :=
  { hn with
    div_nonneg := (advance_div_pos cycles n).le
    div_le := advance_div_le_max cycles hn.div_le }

theorem NoiseInv.forceDac (hn : NoiseInv p n) (v : Byte) : NoiseInv p (forceDac { n with nr1 := v }) :=
  { hn with
    en_len := fun hen => hn.en_len (Bool.and_eq_true_iff.mp hen).1
    en_dac := fun hen => (dacOn_iff _).mp (Bool.and_eq_true_iff.mp hen).2 }

end

theorem triggerLength_bounds {p : Params} {n : NoiseChannel} (step : BitVec 3) (h : n.len ≤ 64) :
    (triggerLength p step n).len ≤ 64 ∧ (triggerLength p step n).len ≠ 0 := by
  by_cases hlen : n.len = 0
  · by_cases hstep : step ∈ p.lengthSteps
    · rw [triggerLength_len_of_lengthStep hlen hstep]
      decide
    · rw [triggerLength_len_of_not_lengthStep hlen hstep]
      decide
  · rw [triggerLength_len_of_ne_zero hlen]
    exact ⟨h, hlen⟩

/-- Each operation of NoiseChannel keeps the invariant; a trigger establishes it but for the length bound. -/
theorem NoiseOp.noiseInv {i : Instr} (hi : NoiseOp i) {s t : State} (hwf : i.wellFormed s.params = true)
    (h : exec i s = .next t) (hn : NoiseInv s.params s.noise) : NoiseInv s.params t.noise := by
  cases hi
  case nwr0 v =>
    have hlow := Nat.mod_lt v.toNat (show 0 < 64 by decide)
    obtain ⟨n, hexec, rfl | rfl⟩ := exec_nwr0_eq v s <;> rw [hexec] at h <;> cases h
    · exact { hn with }
    · exact { hn with
        len_le := Nat.sub_le _ _
        en_len := fun _ => by show 64 - v.toNat % 64 ≠ 0; omega }
  case nwr1 v => cases h; exact hn.forceDac v
  case nwr2 v => cases h; exact { hn with }
  case nwr3 v => cases h; exact { hn with trig_clear := (Bool.not_eq_true' _).mp hwf }
  case nwr3Trig v =>
    rw [exec_nwr3Trig_eq] at h
    cases h
    obtain ⟨hlenle, hlenne⟩ := triggerLength_bounds (p := s.params) s.fsStep hn.len_le
    obtain ⟨hlow, hhigh⟩ := envReload_bounds s.noise
    obtain ⟨hbase, hbase'⟩ := basePeriod_bounds (dcode s.noise)
    have hextra : (0 : Int) ≤ (if s.fsStep = 7 then 1 else 0) ∧ (if s.fsStep = 7 then 1 else 0) ≤ (1 : Int) := by
      split <;> decide
    obtain ⟨hextra0, hextra1⟩ := hextra
    exact
      { vol_le := ivol_le s.noise
        len_le := hlenle
        envctr_nonneg := by show 0 ≤ (envReload s.noise : Int) + _; omega
        envctr_le := by show (envReload s.noise : Int) + _ ≤ 9; omega
        div_nonneg := Int.natCast_nonneg _
        div_le := by show (basePeriod (dcode s.noise) : Int) ≤ 3670016; omega
        en_len := fun _ => hlenne
        en_dac := (dacOn_iff s.noise).mp
        trig_clear := by
          show (clearTrigger s.params v).getLsbD s.params.trigBit = false
          rw [clearTrigger_getLsbD, decide_eq_false (by simp), Bool.and_false] }
  case nadv cycles => cases h; exact hn.advance cycles
  case nclklen => cases h; exact hn.clockLength
  case nclkenv => cases h; exact hn.clockEnvelope
  all_goals cases h; exact hn

/-! ## The divider and the period -/

/-- The period depends on register 2 alone (R212). -/
theorem period_congr {n m : NoiseChannel} (h : n.nr2 = m.nr2) : period n = period m := by
  rw [period, period, dcode, dcode, cshift, cshift, h]

theorem NoiseOp.div_le_period {i : Instr} (hi : NoiseOp i) {s t : State} (h : exec i s = .next t)
    (hdiv : s.noise.div ≤ period s.noise) : t.noise.div ≤ period s.noise := by
  cases hi
  case nwr0 v =>
    obtain ⟨n, hexec, rfl | rfl⟩ := exec_nwr0_eq v s <;> rw [hexec] at h <;> cases h <;> exact hdiv
  case nwr3Trig v =>
    rw [exec_nwr3Trig_eq] at h
    cases h
    exact Int.ofNat_le.mpr (basePeriod_le_period s.noise)
  case nadv cycles => cases h; exact advance_div_le cycles s.noise hdiv
  case nclklen =>
    cases h
    show (clockLength s.noise).div ≤ _
    rcases clockLength_cases s.noise with hn | ⟨-, hn⟩ | ⟨-, hn⟩ <;> rw [hn] <;> exact hdiv
  case nclkenv =>
    cases h
    exact (clockEnvelope_div s.noise).trans_le hdiv
  all_goals cases h; exact hdiv

/-- Settles O53: an AddressSpace operation leaves NoiseChannel; of its own operations each keeps the two bounds, NWR 3 by the
trigger bit that its row excludes (O2). -/
theorem stepKeepsTheNoiseInvariant : Obligations.StepKeepsTheNoiseInvariant := by
  unfold Obligations.StepKeepsTheNoiseInvariant
  intro s t h
  obtain rfl | ⟨rest, i, hwf, hexec⟩ := step_eq_next h
  · exact ⟨id, fun _ => id⟩
  obtain ⟨hparams, -⟩ := parametersAreFixed i _ t hexec
  rw [hparams]
  rcases addressSpaceOp_or_noiseOp i with hi | hi
  · obtain ⟨hnoise, -⟩ := (hi.effect hexec).setup
    rw [hnoise]
    exact ⟨id, fun _ => id⟩
  · refine ⟨hi.noiseInv (s := { s with pending := rest }) hwf hexec, fun hnr2 hdiv => ?_⟩
    rw [period_congr hnr2]
    exact hi.div_le_period (s := { s with pending := rest }) hexec hdiv

/-! ## Power-on -/

/-- Settles O50, field by field. -/
theorem noiseChannelAtPowerOn : Obligations.NoiseChannelAtPowerOn := by
  unfold Obligations.NoiseChannelAtPowerOn
  exact ⟨rfl, rfl, rfl, rfl, rfl, rfl, rfl, rfl, rfl, rfl⟩

theorem noiseInv_reset : NoiseInv State.reset.params State.reset.noise := by
  constructor <;> decide

/-- Settles O51: nothing is listed in an array, and the all-zero channel is within its bounds. -/
theorem powerOnMeetsTheInvariant : Obligations.PowerOnMeetsTheInvariant := by
  unfold Obligations.PowerOnMeetsTheInvariant
  exact ⟨memoryInv_reset, noiseInv_reset⟩

end Sys2Proof.Machine
end
